-- ==== Sys2Proof/Word.lean ====
section
/-! DEFINITION. The widths the spec gives its values (00_scope.md R6, R7), and the bit of a Boolean. -/

namespace Sys2Proof

/-- A byte: DATA, SR, a status code, an action code, a command word. -/
abbrev Byte := BitVec 8

/-- A 16-bit quantity: ADDR_W, LEN_W and TIMEOUT_W are all 16 (00_scope.md R6). -/
abbrev Half := BitVec 16

/-- "Booleans are 0 or 1 when placed in a bit" (00_scope.md R7). -/
def bitByte (b : Bool) : Byte := if b then 1#8 else 0#8

end Sys2Proof
end

