-- ==== Sys2Proof/Syntax.lean ====
section
/-! DEFINITION. The instructions: one constructor per row of spec/opcode_table.json (30_encoding.md R81, R95). -/

namespace Sys2Proof

/-- The two ports an instruction can come in by (30_encoding.md R99): a status event is an SR value that the
Peripheral reports, a host operation is a record that the host presents. -/
inductive Port where
  | event
  | host
  deriving DecidableEq, Repr

/-- The 26 status events, each with the DATA byte its delivery brings (41_dispatch_core.md R140), and the 8 host
operations with the argument fields of 30_encoding.md R95. -/
inductive Instr where
  | busError (data : Byte)
  | start (data : Byte)
  | repStart (data : Byte)
  | mtSlaAck (data : Byte)
  | mtSlaNack (data : Byte)
  | mtDataAck (data : Byte)
  | mtDataNack (data : Byte)
  | arbLost (data : Byte)
  | mrSlaAck (data : Byte)
  | mrSlaNack (data : Byte)
  | mrDataAck (data : Byte)
  | mrDataNack (data : Byte)
  | srSlaAck (data : Byte)
  | srArbLostSlaAck (data : Byte)
  | srGcallAck (data : Byte)
  | srArbLostGcallAck (data : Byte)
  | srDataAck (data : Byte)
  | srDataNack (data : Byte)
  | srGcallDataAck (data : Byte)
  | srGcallDataNack (data : Byte)
  | srStop (data : Byte)
  | stSlaAck (data : Byte)
  | stArbLostSlaAck (data : Byte)
  | stDataAck (data : Byte)
  | stDataNack (data : Byte)
  | stLastData (data : Byte)
  | initController (fd : BitVec 32) (timeout : Half) (hasOnComplete hasOnNack : Bool)
  | initControllerRaw (baud : Byte) (prescaler : BitVec 2) (timeout : Half) (hasOnComplete hasOnNack : Bool)
  | configureResponder (address : BitVec 7) (gc : Bool) (mask : BitVec 7) (hasOnAddressMatch hasOnByteReceived hasOnStopReceived hasOnByteRequested hasOnLastByte : Bool)
  | reset
  | shutDown
  | stop
  | transmit (address : BitVec 7) (buf len : Half) (noStart posted : Bool)
  | receive (address : BitVec 7) (buf len : Half) (noStart : Bool)
  deriving DecidableEq, Repr

/-- Which port an instruction comes in by: the "format" column of spec/opcode_table.json. -/
def Instr.port : Instr → Port
  | .busError _ => .event
  | .start _ => .event
  | .repStart _ => .event
  | .mtSlaAck _ => .event
  | .mtSlaNack _ => .event
  | .mtDataAck _ => .event
  | .mtDataNack _ => .event
  | .arbLost _ => .event
  | .mrSlaAck _ => .event
  | .mrSlaNack _ => .event
  | .mrDataAck _ => .event
  | .mrDataNack _ => .event
  | .srSlaAck _ => .event
  | .srArbLostSlaAck _ => .event
  | .srGcallAck _ => .event
  | .srArbLostGcallAck _ => .event
  | .srDataAck _ => .event
  | .srDataNack _ => .event
  | .srGcallDataAck _ => .event
  | .srGcallDataNack _ => .event
  | .srStop _ => .event
  | .stSlaAck _ => .event
  | .stArbLostSlaAck _ => .event
  | .stDataAck _ => .event
  | .stDataNack _ => .event
  | .stLastData _ => .event
  | .initController _ _ _ _ => .host
  | .initControllerRaw _ _ _ _ _ => .host
  | .configureResponder _ _ _ _ _ _ _ _ => .host
  | .reset => .host
  | .shutDown => .host
  | .stop => .host
  | .transmit _ _ _ _ _ => .host
  | .receive _ _ _ _ => .host

end Sys2Proof
end

