-- ==== Sys2Proof/WellFormed.lean ====
section
/-! DEFINITION. Which instructions are well formed. Every width is in the type; what is left of 30_encoding.md R96 is
the buffer region, which must not wrap past the top of the 2^16-byte buffer memory. -/

namespace Sys2Proof

/-- `buf + len > 2^16` is refused (30_encoding.md R96); a region that ends exactly at the top is not. -/
def regionOk (buf len : Half) : Bool := decide (buf.toNat + len.toNat ≤ 2 ^ 16)

/-- Well-formedness: a transfer's region does not wrap; the other instructions have no check left. -/
def Instr.wf : Instr → Bool
  | .transmit _ buf len _ _ => regionOk buf len
  | .receive _ buf len _ => regionOk buf len
  | .busError _ => true
  | .start _ => true
  | .repStart _ => true
  | .mtSlaAck _ => true
  | .mtSlaNack _ => true
  | .mtDataAck _ => true
  | .mtDataNack _ => true
  | .arbLost _ => true
  | .mrSlaAck _ => true
  | .mrSlaNack _ => true
  | .mrDataAck _ => true
  | .mrDataNack _ => true
  | .srSlaAck _ => true
  | .srArbLostSlaAck _ => true
  | .srGcallAck _ => true
  | .srArbLostGcallAck _ => true
  | .srDataAck _ => true
  | .srDataNack _ => true
  | .srGcallDataAck _ => true
  | .srGcallDataNack _ => true
  | .srStop _ => true
  | .stSlaAck _ => true
  | .stArbLostSlaAck _ => true
  | .stDataAck _ => true
  | .stDataNack _ => true
  | .stLastData _ => true
  | .initController _ _ _ _ => true
  | .initControllerRaw _ _ _ _ _ => true
  | .configureResponder _ _ _ _ _ _ _ _ => true
  | .reset => true
  | .shutDown => true
  | .stop => true

end Sys2Proof
end

