-- ==== Sys2Proof/Decode.lean ====
section
/-! DEFINITION. Decoding of the two ports' bytes, total and rejecting by name, and the encoder.
An event is the bytes SR and DATA (30_encoding.md R80, 41_dispatch_core.md R140). A host record is the selector's byte and
the fields of 30_encoding.md R95 in its order, each in whole bytes, the low byte first. Of a byte that carries one-bit
fields only the named bits are read: its spare bits are ignored, not refused (DESIGN CHOICE, log entry 8). -/

namespace Sys2Proof

/-- Why bytes are no instruction. -/
inductive Reject where
  /-- Fewer bytes than the event or record needs. -/
  | truncated
  /-- A reserved status code, with the DATA byte (30_encoding.md R83). -/
  | reservedStatus (sr data : Byte)
  /-- A reserved selector (30_encoding.md R95, R96). -/
  | reservedSelector
  /-- An address or address_mask above 0x7F (30_encoding.md R96). -/
  | address
  /-- A baud above 0xFF or a prescaler above 3 (30_encoding.md R96). -/
  | timing
  /-- A len above 0xFFFF or a region that wraps (30_encoding.md R96). -/
  | region
  deriving DecidableEq, Repr

/-- What decoding gives: an instruction with the bytes that follow it, or a rejection. -/
inductive Decoded where
  | instr (i : Instr) (rest : List Byte)
  | reject (r : Reject)
  deriving DecidableEq, Repr

/-- Bits [7:3] of SR (30_encoding.md R80). -/
def statusField (sr : Byte) : Nat := sr.toNat / 8

/-- Two bytes, the low one first. -/
def half (lo hi : Byte) : Half := hi ++ lo

/-- Four bytes, the lowest first. -/
def word32 (b0 b1 b2 b3 : Byte) : BitVec 32 := (b3 ++ b2) ++ (b1 ++ b0)

/-- The status field's 26 codes and 6 reserved ones (30_encoding.md R81, R83). -/
def decodeEvent (sr data : Byte) (rest : List Byte) : Decoded :=
  match statusField sr with
  | 0 => .instr (.busError data) rest
  | 1 => .instr (.start data) rest
  | 2 => .instr (.repStart data) rest
  | 3 => .instr (.mtSlaAck data) rest
  | 4 => .instr (.mtSlaNack data) rest
  | 5 => .instr (.mtDataAck data) rest
  | 6 => .instr (.mtDataNack data) rest
  | 7 => .instr (.arbLost data) rest
  | 8 => .instr (.mrSlaAck data) rest
  | 9 => .instr (.mrSlaNack data) rest
  | 10 => .instr (.mrDataAck data) rest
  | 11 => .instr (.mrDataNack data) rest
  | 12 => .instr (.srSlaAck data) rest
  | 13 => .instr (.srArbLostSlaAck data) rest
  | 14 => .instr (.srGcallAck data) rest
  | 15 => .instr (.srArbLostGcallAck data) rest
  | 16 => .instr (.srDataAck data) rest
  | 17 => .instr (.srDataNack data) rest
  | 18 => .instr (.srGcallDataAck data) rest
  | 19 => .instr (.srGcallDataNack data) rest
  | 20 => .instr (.srStop data) rest
  | 21 => .instr (.stSlaAck data) rest
  | 22 => .instr (.stArbLostSlaAck data) rest
  | 23 => .instr (.stDataAck data) rest
  | 24 => .instr (.stDataNack data) rest
  | 25 => .instr (.stLastData data) rest
  | _ => .reject (.reservedStatus sr data)

/-- initialize_controller: fd (4 bytes), timeout (2), flags (bit 0 has_on_complete, bit 1 has_on_nack; the
rest is ignored, DESIGN CHOICE, log entry 8). -/
def decodeInit : List Byte → Decoded
  | f0 :: f1 :: f2 :: f3 :: t0 :: t1 :: fl :: rest =>
    .instr (.initController (word32 f0 f1 f2 f3) (half t0 t1) (fl.getLsbD 0) (fl.getLsbD 1)) rest
  | _ => .reject .truncated

/-- initialize_controller_raw: baud (2 bytes), prescaler (1), timeout (2), flags as in initialize_controller. -/
def decodeInitRaw : List Byte → Decoded
  | b0 :: b1 :: p :: t0 :: t1 :: fl :: rest =>
    if 0xFF < (half b0 b1).toNat ∨ 3 < p.toNat then .reject .timing
    else .instr (.initControllerRaw b0 (p.setWidth 2) (half t0 t1) (fl.getLsbD 0) (fl.getLsbD 1)) rest
  | _ => .reject .truncated

/-- configure_responder: address, gc (bit 0), address_mask, slots (bits 0 to 4); the other bits of the gc byte and of the
slots byte are ignored (DESIGN CHOICE, log entry 8). -/
def decodeConfigure : List Byte → Decoded
  | a :: g :: m :: h :: rest =>
    if 0x7F < a.toNat ∨ 0x7F < m.toNat then .reject .address
    else .instr (.configureResponder (a.setWidth 7) (g.getLsbD 0) (m.setWidth 7) (h.getLsbD 0) (h.getLsbD 1) (h.getLsbD 2) (h.getLsbD 3) (h.getLsbD 4)) rest
  | _ => .reject .truncated

/-- The region check of 30_encoding.md R96 on a length as wide as the record carries it. -/
def regionRefused (buf : Half) (len : Nat) : Bool := decide (0xFFFF < len ∨ 2 ^ 16 < buf.toNat + len)

/-- transmit: address, buf (2 bytes), len (3), flags (bit 0 no_start, bit 1 posted; the rest is ignored, DESIGN
CHOICE, log entry 8). -/
def decodeTransmit : List Byte → Decoded
  | a :: b0 :: b1 :: l0 :: l1 :: l2 :: fl :: rest =>
    if 0x7F < a.toNat then .reject .address
    else if regionRefused (half b0 b1) (l2 ++ half l0 l1).toNat then .reject .region
    else .instr (.transmit (a.setWidth 7) (half b0 b1) (half l0 l1) (fl.getLsbD 0) (fl.getLsbD 1)) rest
  | _ => .reject .truncated

/-- receive: address, buf (2 bytes), len (3), flags (bit 0 no_start; the rest is ignored, DESIGN CHOICE, log entry 8). -/
def decodeReceive : List Byte → Decoded
  | a :: b0 :: b1 :: l0 :: l1 :: l2 :: fl :: rest =>
    if 0x7F < a.toNat then .reject .address
    else if regionRefused (half b0 b1) (l2 ++ half l0 l1).toNat then .reject .region
    else .instr (.receive (a.setWidth 7) (half b0 b1) (half l0 l1) (fl.getLsbD 0)) rest
  | _ => .reject .truncated

/-- The 4-bit selector, in the low bits of the record's first byte (30_encoding.md R95); the high bits carry nothing. -/
def decodeHost (sel : Byte) (rest : List Byte) : Decoded :=
  match sel.toNat % 16 with
  | 1 => decodeInit rest
  | 2 => decodeInitRaw rest
  | 3 => decodeConfigure rest
  | 4 => .instr .reset rest
  | 5 => .instr .shutDown rest
  | 6 => .instr .stop rest
  | 7 => decodeTransmit rest
  | 8 => decodeReceive rest
  | _ => .reject .reservedSelector

/-- The instruction at the head of a port's bytes. -/
def decode : Port → List Byte → Decoded
  | .event, sr :: data :: rest => decodeEvent sr data rest
  | .host, sel :: rest => decodeHost sel rest
  | _, _ => .reject .truncated

/-! ## The encoder, from the same tables -/

/-- The low byte of a half, then its high byte. -/
def halfBytes (v : Half) : List Byte := [v.extractLsb' 0 8, v.extractLsb' 8 8]

/-- The four bytes of a 32-bit value, the lowest first. -/
def word32Bytes (v : BitVec 32) : List Byte :=
  [v.extractLsb' 0 8, v.extractLsb' 8 8, v.extractLsb' 16 8, v.extractLsb' 24 8]

/-- Up to eight flags in a byte, the first in bit 0. -/
def flagByte : List Bool → Byte
  | [] => 0#8
  | b :: bs => bitByte b ||| (flagByte bs <<< 1)

/-- The bytes of an instruction. -/
def encode : Instr → List Byte
  | .busError d => [0x00#8, d]
  | .start d => [0x08#8, d]
  | .repStart d => [0x10#8, d]
  | .mtSlaAck d => [0x18#8, d]
  | .mtSlaNack d => [0x20#8, d]
  | .mtDataAck d => [0x28#8, d]
  | .mtDataNack d => [0x30#8, d]
  | .arbLost d => [0x38#8, d]
  | .mrSlaAck d => [0x40#8, d]
  | .mrSlaNack d => [0x48#8, d]
  | .mrDataAck d => [0x50#8, d]
  | .mrDataNack d => [0x58#8, d]
  | .srSlaAck d => [0x60#8, d]
  | .srArbLostSlaAck d => [0x68#8, d]
  | .srGcallAck d => [0x70#8, d]
  | .srArbLostGcallAck d => [0x78#8, d]
  | .srDataAck d => [0x80#8, d]
  | .srDataNack d => [0x88#8, d]
  | .srGcallDataAck d => [0x90#8, d]
  | .srGcallDataNack d => [0x98#8, d]
  | .srStop d => [0xA0#8, d]
  | .stSlaAck d => [0xA8#8, d]
  | .stArbLostSlaAck d => [0xB0#8, d]
  | .stDataAck d => [0xB8#8, d]
  | .stDataNack d => [0xC0#8, d]
  | .stLastData d => [0xC8#8, d]
  | .initController fd t hc hn => 0x01#8 :: (word32Bytes fd ++ halfBytes t ++ [flagByte [hc, hn]])
  | .initControllerRaw b p t hc hn => 0x02#8 :: ([b, 0#8, p.setWidth 8] ++ halfBytes t ++ [flagByte [hc, hn]])
  | .configureResponder a g m h2 h3 h4 h5 h6 => [0x03#8, a.setWidth 8, bitByte g, m.setWidth 8, flagByte [h2, h3, h4, h5, h6]]
  | .reset => [0x04#8]
  | .shutDown => [0x05#8]
  | .stop => [0x06#8]
  | .transmit a b l ns po => 0x07#8 :: a.setWidth 8 :: (halfBytes b ++ halfBytes l ++ [0#8, flagByte [ns, po]])
  | .receive a b l ns => 0x08#8 :: a.setWidth 8 :: (halfBytes b ++ halfBytes l ++ [0#8, flagByte [ns]])

/-! ## The opcode table's words -/

/-- The low n bytes of w, the lowest first: the first word of the table is the lowest (log entry 12). -/
def wordBytes : Nat → Nat → List Byte
  | 0, _ => []
  | n + 1, w => BitVec.ofNat 8 w :: wordBytes n (w / 256)

/-- Which port a word of the opcode table is meant for. The table's two formats share their numbers: a row of 4 bits is a
selector, and so is a word of 1 to 7 (as an SR value it would be BUS_ERROR with its ignored bits set); any other word is
an SR value, 0x08 among them, which as a selector would be receive (DESIGN CHOICE, log entry 12). -/
def tablePort (nbits w : Nat) : Port :=
  if nbits < 8 ∨ (0 < w ∧ w < 8) then .host else .event

/-- The bytes of a word of the opcode table, followed by zeros up to the longest instruction, 8 bytes. -/
def tableBytes (nbits w : Nat) : List Byte := wordBytes ((nbits + 7) / 8) w ++ List.replicate 8 0#8

/-- The instruction the decoder reads from a word of the opcode table. -/
def decodeTableWord (nbits w : Nat) : Option Instr :=
  match decode (tablePort nbits w) (tableBytes nbits w) with
  | .instr i _ => some i
  | .reject _ => none

end Sys2Proof
end

