-- ==== Sys2Proof/Config.lean ====
section
/-! DEFINITION. What an implementation fixes (00_scope.md R6) and the free values. An opaque constant has no body: no
proof can see its value, so a claim that holds, holds whatever it is. -/

namespace Sys2Proof

/-- The peripheral's registers, addressed by name (60_exceptions.md R295). -/
inductive PeriphReg where
  | ctrl
  | data
  | sr
  | baud
  | addr
  | amask
  deriving DecidableEq, Repr

/-- TIMING_FN, an OPEN parameter (00_scope.md R6, 40_init_config.md R121): baud and prescaler from
frequency_or_divisor. The argument's 32 bits are the model's (DESIGN CHOICE, log entry 9). -/
opaque Config.timingFn : BitVec 32 → BitVec 8 × BitVec 2

/-- The action code of a policy answer the environment has not laid down: a free input of the step
(41_dispatch_core.md R146), fresh at each call by the counter it is applied to (log entry 6). -/
opaque Config.policyAction : Nat → Byte

/-- The out_byte of such an answer (30_encoding.md R97), free in the same way (log entry 6). -/
opaque Config.policyOut : Nat → Byte

/-- WAIT_STEP_US, an OPEN parameter: no rule depends on it (60_exceptions.md R294, 70_reset_and_hazards.md R325). -/
opaque Config.waitStepUs : Nat

/-- PERIPH_MAP, an OPEN parameter: no rule depends on it, the CORE addresses registers by name (20_memory.md R74). -/
opaque Config.periphMap : PeriphReg → Nat

/-- ST_ADDR_LOADS_FIRST_BYTE, value true (00_scope.md R6, 43_responder_events.md R193). The operation that reads it
takes it as an argument, so that both values have a meaning. -/
def Config.stAddrLoadsFirstByte : Bool := true

/-- What a byte of buffer memory that nothing has written reads as (DESIGN CHOICE, unsafe, log entry 4). -/
def Config.unlistedByte : Byte := 0#8

end Sys2Proof
end

