-- ==== Sys2Proof/Machine/State.lean ====
section
/-! DEFINITION. The state of the CORE (10_state.md), the environment's pending moves, the reasons a step stops, and the
power-on state (70_reset_and_hazards.md R310). -/

namespace Sys2Proof.Machine

/-- 10_state.md R27, codes in 30_encoding.md R93. -/
inductive RoleState where
  | uninitialized
  | idle
  | busy
  | repeatedStartPending
  | stopping
  deriving DecidableEq, Repr

/-- 10_state.md R29, codes in 30_encoding.md R93. -/
inductive TransferMode where
  | none
  | controllerTransmit
  | controllerReceive
  | responderTransmit
  | responderReceive
  deriving DecidableEq, Repr

/-- 10_state.md R32. -/
inductive Phase where
  | ready
  | waitQ1
  | waitRS
  | waitDone
  | waitStop
  deriving DecidableEq, Repr

/-- The policy slots, in the order of their numbers 0 to 6 (30_encoding.md R97). -/
inductive Slot where
  | onComplete
  | onNackOrArbitrationLoss
  | onAddressMatch
  | onByteReceived
  | onStopReceived
  | onByteRequested
  | onLastByte
  deriving DecidableEq, Repr

/-- The seven presence bits (10_state.md R30). -/
structure SlotBits where
  onComplete : Bool
  onNackOrArbitrationLoss : Bool
  onAddressMatch : Bool
  onByteReceived : Bool
  onStopReceived : Bool
  onByteRequested : Bool
  onLastByte : Bool
  deriving DecidableEq, Repr

/-- The fields marked unwritten at power-on (10_state.md R44). -/
inductive Field where
  | bufferBase
  | length
  | cursor
  | lastEvent
  | targetAddress
  | timeoutBudget
  | op
  deriving DecidableEq, Repr

/-- The model fault reasons of 60_exceptions.md R285, as `faults` records them. -/
inductive FaultReason where
  | unwrittenRead (f : Field)
  | unrecognisedEvent (code : Byte)
  | missingByteRequested
  deriving DecidableEq, Repr

/-- The names under which the host interface refuses a record (30_encoding.md R96). -/
inductive RefuseName where
  | selector
  | address
  | timing
  | region
  deriving DecidableEq, Repr

/-- The latched record (10_state.md R34). For an operation that has no such argument the field holds 0, which no rule
reads (DESIGN CHOICE, log entry 11). -/
structure Op where
  selector : BitVec 4
  dir : Bool
  address : BitVec 7
  buf : Half
  len : Half
  noStart : Bool
  posted : Bool
  deriving DecidableEq, Repr

/-- One access of the CORE to the peripheral: `P.read` or `P.write` (00_scope.md R9). A write of the prescaler field
SR[1:0] is recorded with the field's value. -/
inductive PortOp where
  | read (r : PeriphReg)
  | write (r : PeriphReg) (v : Byte)
  deriving DecidableEq, Repr

/-- One callback invocation with its arguments (30_encoding.md R97). -/
inductive Call where
  | onComplete (event : Byte)
  | onNackOrArbitrationLoss (event : Byte)
  | onAddressMatch (matched : BitVec 7) (event : Byte)
  | onByteReceived (byte : Byte) (event : Byte)
  | onStopReceived
  | onByteRequested
  | onLastByte (event : Byte)
  deriving DecidableEq, Repr

/-- An answer of the Policy oracle to the next call of a slot (30_encoding.md R97, R100). -/
structure Answer where
  slot : Slot
  action : Byte
  out : Byte
  deriving DecidableEq, Repr

/-- A region of buffer memory the host holds allocated (20_memory.md R64). -/
structure Region where
  base : Nat
  size : Nat
  deriving DecidableEq, Repr

/-- One move of the environment or of the scheduler: a line of the event script (30_encoding.md R100), and the host's
writes and allocations (20_memory.md R64, 70_reset_and_hazards.md R317).
`event` holds the bytes SR and DATA, `host` the bytes of a record (layout: log entry 8). -/
inductive Move where
  | event (bytes : List Byte)
  | host (record : List Byte)
  | check
  | stopDone
  | answer (a : Answer)
  | memWrite (a : Half) (v : Byte)
  | alloc (regions : List Region)
  deriving DecidableEq, Repr

/-- Buffer memory: (address, byte) pairs, addresses strictly rising, none with the byte an unlisted address has. -/
abbrev Memory := List Host.Cell

/-- The machine. An `Option` field is one the spec marks "unwritten" at power-on: `none` is the spec's own state, in which
a read raises UnwrittenRead (10_state.md R44; log entry 2). -/
structure State where
  /-- 10_state.md R21. -/
  bufferBase : Option Half
  /-- 10_state.md R22. -/
  length : Option Half
  /-- 10_state.md R23. -/
  cursor : Option Half
  /-- 10_state.md R24. -/
  lastEvent : Option Byte
  /-- 10_state.md R25. -/
  targetAddress : Option Byte
  /-- 10_state.md R26. -/
  timeoutBudget : Option Half
  /-- 10_state.md R27. -/
  roleState : RoleState
  /-- 10_state.md R29. -/
  transferMode : TransferMode
  /-- 10_state.md R30. -/
  slots : SlotBits
  /-- 10_state.md R32. -/
  phase : Phase
  /-- 10_state.md R33. -/
  waitK : Half
  /-- 10_state.md R34. -/
  op : Option Op
  /-- CTRL.ENABLE last written (10_state.md R35). -/
  ctrlEn : Bool
  /-- CTRL.INTERRUPT_ENABLE last written (10_state.md R35). -/
  ctrlIe : Bool
  /-- CTRL.ACK_ENABLE last written (10_state.md R35). -/
  ctrlEa : Bool
  /-- CTRL.START last written (10_state.md R35). -/
  ctrlSta : Bool
  /-- CTRL.INTERRUPT_FLAG (10_state.md R36). -/
  irqFlag : Bool
  /-- CTRL.STOP read back (10_state.md R37). -/
  stopPending : Bool
  /-- DATA (10_state.md R38). -/
  data : Byte
  /-- SR (10_state.md R39). -/
  sr : Byte
  /-- BAUD (10_state.md R40). -/
  baud : Byte
  /-- ADDR (10_state.md R41). -/
  addr : Byte
  /-- AMASK (10_state.md R41). -/
  amask : Byte
  /-- 10_state.md R42. -/
  pullupEn : Bool
  /-- Buffer memory (20_memory.md R60). -/
  mem : Memory
  /-- What the host holds allocated (20_memory.md R64). -/
  alloc : List Region
  /-- Recorded faults, a set (10_state.md R43). -/
  faults : List FaultReason
  /-- The refusal mark with its names, a set (60_exceptions.md R285). -/
  refused : List RefuseName
  /-- The model's own: the environment's moves still to come, next first. -/
  script : List Move
  /-- The model's own: policy answers laid down and not yet taken, next first. -/
  answers : List Answer
  /-- The model's own: how many policy answers were drawn as free values. -/
  freeCount : Nat
  /-- What the host operations returned, oldest first (70_reset_and_hazards.md R326). -/
  results : List Byte
  /-- The model's own: the callback invocations, oldest first. -/
  calls : List Call
  /-- The model's own: the CORE's peripheral accesses, oldest first. -/
  portLog : List PortOp
  deriving DecidableEq, Repr

/-- Why a step stops with a fault. -/
inductive Fault where
  /-- Raised by every step of the Dispatcher or the Orchestrator in a state whose `faults` is not empty: such a state has
  no further step of theirs (60_exceptions.md R286). Safe: the spec gives no step. -/
  | recorded (r : FaultReason)
  /-- Raised by a dispatch that reads or writes buffer memory at an address the host does not hold allocated: the spec
  calls it stuck, it has no step (20_memory.md R64). Safe: the spec gives no step. -/
  | bufferNotAdmitted (a : Half)
  /-- Raised by a step with no move left, phase Ready and no fault recorded, in a state from which no agent can step and
  that is not FINISHED (70_reset_and_hazards.md R326). Safe: the spec gives no step. -/
  | stuck
  deriving DecidableEq, Repr

/-- Why a move has no meaning in the state it comes in. -/
inductive Refusal where
  /-- Raised by exec for an instruction that has no meaning yet. Safe: nothing is claimed of it. -/
  | notModelled (mnemonic : String)
  /-- Raised by a delivery while it is not enabled: the script "is ill-formed and describes no run" (30_encoding.md R101,
  60_exceptions.md R288). Safe: the spec gives no step. -/
  | deliveryDisabled
  /-- Raised by a scheduled Check while phase is Ready, when the step is not enabled (44_orchestrator.md R231). Safe: the
  spec gives no step. -/
  | checkDisabled
  /-- Raised by the Peripheral's ClearStop while stop_pending is 0, when it is not enabled (60_exceptions.md R295). Safe:
  the spec gives no step. -/
  | stopDoneDisabled
  /-- Raised by a move whose bytes are fewer than its event or record needs: no such input exists in the spec, it is an
  artefact of the byte form (log entry 8). Safe: nothing is claimed of it. -/
  | truncatedInput
  deriving DecidableEq, Repr

/-- What a step answers. -/
abbrev Out := Host.Outcome State Fault Refusal

/-- All seven slots absent. -/
def SlotBits.absent : SlotBits := ⟨false, false, false, false, false, false, false⟩

/-- Power-on (70_reset_and_hazards.md R310). DATA, SR, BAUD, ADDR, AMASK are "any value" and pullup_en is unspecified
there: 0 is the model's (DESIGN CHOICE, unsafe, log entry 3), as is the allocation (log entry 5). -/
def State.reset : State where
  bufferBase := none
  length := none
  cursor := none
  lastEvent := none
  targetAddress := none
  timeoutBudget := none
  roleState := .uninitialized
  transferMode := .none
  slots := SlotBits.absent
  phase := .ready
  waitK := 0#16
  op := none
  ctrlEn := false
  ctrlIe := false
  ctrlEa := false
  ctrlSta := false
  irqFlag := false
  stopPending := false
  data := 0#8
  sr := 0#8
  baud := 0#8
  addr := 0#8
  amask := 0#8
  pullupEn := false
  mem := []
  alloc := [⟨0, 2 ^ 16⟩]
  faults := []
  refused := []
  script := []
  answers := []
  freeCount := 0
  results := []
  calls := []
  portLog := []

end Sys2Proof.Machine
end

