-- ==== Sys2Proof/Machine/Operands.lean ====
section
/-! DEFINITION. The operand forms: status codes, command words, action codes, address bytes, result codes, buffer
addresses (30_encoding.md, 20_memory.md R61). -/

namespace Sys2Proof.Machine

/-- `SR & 0xF8` (30_encoding.md R80). -/
def statusCode (sr : Byte) : Byte := sr &&& 0xF8#8

/-- SR after the Peripheral reports a code: its bits [7:3] are written, bits [2:0] keep their value
(41_dispatch_core.md R140). -/
def setStatus (sr code : Byte) : Byte := (sr &&& 0x07#8) ||| (code &&& 0xF8#8)

/-- SR after a write of the prescaler field [1:0] (40_init_config.md R120). -/
def setPrescaler (sr : Byte) (p : BitVec 2) : Byte := (sr &&& 0xFC#8) ||| p.setWidth 8

/-- CMD(ack, sta, sto) (30_encoding.md R85). -/
def cmd (ack sta sto : Bool) : Byte :=
  0x85#8 ||| (bitByte ack <<< 6) ||| (bitByte sta <<< 5) ||| (bitByte sto <<< 4)

/-- ARM (30_encoding.md R86). -/
def ctrlArm : Byte := 0xC5#8

/-- DISABLE (30_encoding.md R86). -/
def ctrlDisable : Byte := 0x00#8

/-- `A.ACK` (30_encoding.md R87, R88). -/
def actAck (a : Byte) : Bool := a.getLsbD 0

/-- `A.START` (30_encoding.md R87). -/
def actStart (a : Byte) : Bool := a.getLsbD 2

/-- `A.STOP` (30_encoding.md R87). -/
def actStop (a : Byte) : Bool := a.getLsbD 3

/-- `A.CONT` (30_encoding.md R87). -/
def actCont (a : Byte) : Bool := a.getLsbD 4

/-- ACT_ACK (30_encoding.md R87). -/
def ACT_ACK : Byte := 0x01#8

/-- ACT_NACK (30_encoding.md R87). -/
def ACT_NACK : Byte := 0x02#8

/-- ACT_STOP (30_encoding.md R87). -/
def ACT_STOP : Byte := 0x08#8

/-- The SLA byte; dir is 0 for a write and 1 for a read (30_encoding.md R89). -/
def slaByte (address : BitVec 7) (dir : Bool) : Byte := (address.setWidth 8 <<< 1) ||| bitByte dir

/-- ADDR (30_encoding.md R90). -/
def addrReg (address : BitVec 7) (gc : Bool) : Byte := (address.setWidth 8 <<< 1) ||| bitByte gc

/-- AMASK, bit 0 written 0 (30_encoding.md R91). -/
def amaskReg (mask : BitVec 7) : Byte := mask.setWidth 8 <<< 1

/-- `DATA[7:1]` at an address match (30_encoding.md R92). -/
def matchedAddress (d : Byte) : BitVec 7 := d.extractLsb' 1 7

/-- The address of the buffer byte at index i, modulo 2^16 (20_memory.md R61). -/
def bufAddr (base i : Half) : Half := base + i

/-- The result codes of the driver statuses (30_encoding.md R94). -/
def resultOk : Byte := 0x01#8

/-- NotInitialized (30_encoding.md R94). -/
def resultNotInitialized : Byte := 0x02#8

/-- TimedOut (30_encoding.md R94). -/
def resultTimedOut : Byte := 0x03#8

/-- NoWait (30_encoding.md R94). -/
def resultNoWait : Byte := 0x04#8

/-- The codes of role_state (30_encoding.md R93). -/
def RoleState.code : RoleState → BitVec 3
  | .uninitialized => 0#3
  | .idle => 1#3
  | .busy => 2#3
  | .repeatedStartPending => 3#3
  | .stopping => 4#3

/-- The codes of transfer_mode (30_encoding.md R93). -/
def TransferMode.code : TransferMode → BitVec 3
  | .none => 0#3
  | .controllerTransmit => 1#3
  | .controllerReceive => 2#3
  | .responderTransmit => 3#3
  | .responderReceive => 4#3

/-- The presence bit of a slot, `S.slot[k]` (00_scope.md R8). -/
def SlotBits.get (b : SlotBits) : Slot → Bool
  | .onComplete => b.onComplete
  | .onNackOrArbitrationLoss => b.onNackOrArbitrationLoss
  | .onAddressMatch => b.onAddressMatch
  | .onByteReceived => b.onByteReceived
  | .onStopReceived => b.onStopReceived
  | .onByteRequested => b.onByteRequested
  | .onLastByte => b.onLastByte

/-- The slot a callback invocation goes to (30_encoding.md R97). -/
def Call.slot : Call → Slot
  | .onComplete _ => .onComplete
  | .onNackOrArbitrationLoss _ => .onNackOrArbitrationLoss
  | .onAddressMatch _ _ => .onAddressMatch
  | .onByteReceived _ _ => .onByteReceived
  | .onStopReceived => .onStopReceived
  | .onByteRequested => .onByteRequested
  | .onLastByte _ => .onLastByte

end Sys2Proof.Machine
end

