-- ==== Sys2Proof/Machine/Flags.lean ====
section
/-! DEFINITION. The flags: what a CTRL write does to irq_flag, stop_pending and the CTRL bits, what CTRL reads back, when
an event can be delivered, quiescence, and the receive acknowledge bit. -/

namespace Sys2Proof.Machine

/-- The side effects of a CTRL write (20_memory.md R69, 60_exceptions.md R287): the four kept bits take the written value;
INTERRUPT_FLAG 1 or ENABLE 0 clears irq_flag; STOP 1 sets stop_pending; ENABLE 0 clears it. -/
def State.ctrlWritten (s : State) (v : Byte) : State :=
  { s with
    ctrlEn := v.getLsbD 2
    ctrlIe := v.getLsbD 0
    ctrlEa := v.getLsbD 6
    ctrlSta := v.getLsbD 5
    irqFlag := s.irqFlag && !v.getLsbD 7 && v.getLsbD 2
    stopPending := (s.stopPending || v.getLsbD 4) && v.getLsbD 2 }

/-- What CTRL reads back: the kept bits, the pending flag and the stop-pending bit (30_encoding.md R84, 10_state.md
R35 to R37). -/
def State.ctrlValue (s : State) : Byte :=
  (bitByte s.irqFlag <<< 7) ||| (bitByte s.ctrlEa <<< 6) ||| (bitByte s.ctrlSta <<< 5) |||
    (bitByte s.stopPending <<< 4) ||| (bitByte s.ctrlEn <<< 2) ||| bitByte s.ctrlIe

/-- DeliveryEnabled(S) (60_exceptions.md R288). -/
def State.deliveryEnabled (s : State) : Bool :=
  s.ctrlEn && s.ctrlIe && !s.irqFlag && s.faults.isEmpty

/-- Quiescent(S) (10_state.md R46). -/
def State.quiescent (s : State) : Bool :=
  match s.roleState with
  | .idle => true
  | .repeatedStartPending => true
  | .uninitialized => false
  | .busy => false
  | .stopping => false

/-- RxAck() of a length and a cursor: the remaining count, LEN_W bits, is 2 or more (41_dispatch_core.md R150,
30_encoding.md R98). -/
def rxAckOf (length cursor : Half) : Bool := decide (2 ≤ (length - cursor).toNat)

end Sys2Proof.Machine
end

