-- ==== Sys2Proof/Machine/Ops.lean ====
section
/-! DEFINITION. The named operations: buffer memory, raising a fault, reading an unwritten field, the peripheral port, the
command primitive, the policy oracle, delivery of an event (the block's one exception entry), host acceptance, Return. -/

namespace Sys2Proof.Machine

/-! ## Buffer memory -/

/-- The byte at an address. -/
def Memory.read : Memory → Nat → Byte
  | [], _ => Config.unlistedByte
  | (b, w) :: m, a => if b = a then w else Memory.read m a

/-- A cell in front of a memory, left out where it holds what an unlisted address reads as. -/
def Memory.cons (a : Nat) (v : Byte) (m : Memory) : Memory :=
  if v = Config.unlistedByte then m else (a, v) :: m

/-- Memory with one byte written, in canonical form again. -/
def Memory.write : Memory → Nat → Byte → Memory
  | [], a, v => Memory.cons a v []
  | (b, w) :: m, a, v =>
    if a < b then Memory.cons a v ((b, w) :: m)
    else if a = b then Memory.cons a v m
    else (b, w) :: Memory.write m a v

/-- Every listed address is below hi, and at least lo, the addresses rise strictly, no byte is the unlisted one. -/
def Memory.wfFrom (lo : Nat) : Memory → Bool
  | [] => true
  | (a, v) :: m => decide (lo ≤ a ∧ a < 2 ^ 16 ∧ v ≠ Config.unlistedByte) && Memory.wfFrom (a + 1) m

/-- The canonical form, within the 2^16 bytes of buffer memory. -/
def Memory.wf (m : Memory) : Bool := Memory.wfFrom 0 m

/-- The address lies in memory the host holds allocated (20_memory.md R64). -/
def State.admitted (s : State) (a : Half) : Bool :=
  s.alloc.any fun r => decide (r.base ≤ a.toNat ∧ a.toNat < r.base + r.size)

/-- MemRead(a, 1); an access that is not admitted has no step (00_scope.md R10, 20_memory.md R64). -/
def memRead (a : Half) (s : State) (k : Byte → Out) : Out :=
  if s.admitted a then k (Memory.read s.mem a.toNat) else .fault (.bufferNotAdmitted a)

/-- MemWrite(a, 1, v) (00_scope.md R10, 20_memory.md R64). -/
def memWrite (a : Half) (v : Byte) (s : State) (k : State → Out) : Out :=
  if s.admitted a then k { s with mem := Memory.write s.mem a.toNat v } else .fault (.bufferNotAdmitted a)

/-! ## Faults and refusals -/

/-- The set of faults with one reason added (10_state.md R43). -/
def addFault (r : FaultReason) (l : List FaultReason) : List FaultReason := if r ∈ l then l else l ++ [r]

/-- `raise Fault(reason)`: the reason is recorded and the step ends here, the writes made before stand
(60_exceptions.md R286). -/
def raise (r : FaultReason) (s : State) : Out := .next { s with faults := addFault r s.faults }

/-- A step of the Dispatcher or the Orchestrator: none in a faulted state (60_exceptions.md R286). -/
def unlessFaulted (s : State) (k : Out) : Out :=
  match s.faults with
  | [] => k
  | r :: _ => .fault (.recorded r)

/-- Reading a field that may be unwritten (00_scope.md R8, 10_state.md R44). -/
def withField {α : Type} (v : Option α) (f : Field) (s : State) (k : α → Out) : Out :=
  match v with
  | some x => k x
  | none => raise (.unwrittenRead f) s

/-- The host interface refuses a record: the mark is set with the name and nothing is accepted (60_exceptions.md R285). -/
def refuse (n : RefuseName) (s : State) : Out :=
  .next { s with refused := if n ∈ s.refused then s.refused else s.refused ++ [n] }

/-! ## The peripheral port -/

/-- An access recorded. -/
def State.logPort (s : State) (o : PortOp) : State := { s with portLog := s.portLog ++ [o] }

/-- P.read(SR) or P.read(DATA): no side effect (20_memory.md R69). -/
def State.readPort (s : State) (r : PeriphReg) : State := s.logPort (.read r)

/-- P.write(CTRL, v). -/
def State.writeCtrl (s : State) (v : Byte) : State := (s.ctrlWritten v).logPort (.write .ctrl v)

/-- P.write(DATA, v). -/
def State.writeData (s : State) (v : Byte) : State := { s with data := v }.logPort (.write .data v)

/-- P.write(SR[1:0], p). -/
def State.writePrescaler (s : State) (p : BitVec 2) : State :=
  { s with sr := setPrescaler s.sr p }.logPort (.write .sr (p.setWidth 8))

/-- P.write(BAUD, v). -/
def State.writeBaud (s : State) (v : Byte) : State := { s with baud := v }.logPort (.write .baud v)

/-- P.write(ADDR, v). -/
def State.writeAddr (s : State) (v : Byte) : State := { s with addr := v }.logPort (.write .addr v)

/-- P.write(AMASK, v). -/
def State.writeAmask (s : State) (v : Byte) : State := { s with amask := v }.logPort (.write .amask v)

/-- Issue(CMD(ack, sta, sto)) (41_dispatch_core.md R143). -/
def State.issue (s : State) (ack sta sto : Bool) : State := s.writeCtrl (cmd ack sta sto)

/-- Issue(CMD(ack, sta, sto), byte): DATA before CTRL (41_dispatch_core.md R143, 70_reset_and_hazards.md R315). -/
def State.issueByte (s : State) (ack sta sto : Bool) (byte : Byte) : State := (s.writeData byte).issue ack sta sto

/-- DoReset() (40_init_config.md R124). -/
def State.doReset (s : State) : State :=
  { (s.writeCtrl ctrlDisable).writeCtrl ctrlArm with roleState := .idle }

/-! ## The policy oracle -/

/-- The next answer laid down for a slot, and the answers left. -/
def takeAnswer (k : Slot) : List Answer → Option (Answer × List Answer)
  | [] => none
  | a :: as =>
    if a.slot = k then some (a, as)
    else (takeAnswer k as).map fun p => (p.1, a :: p.2)

/-- Policy.call(k, args): the call is recorded; the answer is the next one the environment laid down for the slot, or,
where it laid down none, a free value (00_scope.md R11, 41_dispatch_core.md R146; log entry 6). -/
def State.policyCall (s : State) (c : Call) : Answer × State :=
  match takeAnswer c.slot s.answers with
  | some (a, rest) => (a, { s with answers := rest, calls := s.calls ++ [c] })
  | none =>
    (⟨c.slot, Config.policyAction s.freeCount, Config.policyOut s.freeCount⟩,
      { s with freeCount := s.freeCount + 1, calls := s.calls ++ [c] })

/-- Decide(k, args, dflt): the callback's action, or the default where the slot is absent (41_dispatch_core.md R146). -/
def State.consult (s : State) (c : Call) (dflt : Byte) : Byte × State :=
  if s.slots.get c.slot then ((s.policyCall c).1.action, (s.policyCall c).2) else (dflt, s)

/-! ## Delivery: the block's one exception entry (60_exceptions.md R291) -/

/-- What the Peripheral writes when it reports a bus condition (41_dispatch_core.md R140). -/
def State.reported (s : State) (code data : Byte) : State :=
  { s with sr := setStatus s.sr code, data := data, irqFlag := true }

/-- Dispatch(): the status is read first and recorded in last_event, then the row runs (41_dispatch_core.md R141). The
return from it is the end of the row: nothing was saved and nothing is restored (60_exceptions.md R291, R292). -/
def dispatch (row : State → Out) (s : State) : Out :=
  row { s.readPort .sr with lastEvent := some (statusCode s.sr) }

/-- Deliver(sr, data): delivery and dispatch in one atomic step, enabled only under 60_exceptions.md R288
(41_dispatch_core.md R140). -/
def deliver (code data : Byte) (row : State → Out) (s : State) : Out :=
  unlessFaulted s (if s.deliveryEnabled then dispatch row (s.reported code data) else .refused .deliveryDisabled)

/-- A delivery of a reserved status code: last_event is written, then the fault; no command (30_encoding.md R83). -/
def deliverReserved (sr data : Byte) (s : State) : Out :=
  deliver (statusCode sr) data (raise (.unrecognisedEvent (statusCode sr))) s

/-! ## The host interface -/

/-- Return(status): the result is given to the host and phase becomes Ready (00_scope.md R12). -/
def State.returned (s : State) (status : Byte) : State :=
  { s with phase := .ready, results := s.results ++ [status] }

/-- StartWait(P) (44_orchestrator.md R231). -/
def State.startWait (s : State) (p : Phase) : State := { s with waitK := 0#16, phase := p }

/-- Accept(rec): while phase is not Ready the operation is neither accepted nor refused, the host waits; a record that
30_encoding.md R96 refuses is not accepted; otherwise it is latched and its first step runs (44_orchestrator.md R230). -/
def accept (refusal : Option RefuseName) (o : Op) (run : State → Out) (s : State) : Out :=
  if s.phase = .ready then
    match refusal with
    | some n => refuse n s
    | none => unlessFaulted s (run { s with op := some o })
  else .next s

/-- The record of an operation without transfer arguments (log entry 11). -/
def Op.plain (selector : BitVec 4) : Op := ⟨selector, false, 0#7, 0#16, 0#16, false, false⟩

/-- The refusal a transfer's region meets, if any (30_encoding.md R96). -/
def regionRefusal (buf len : Half) : Option RefuseName := if regionOk buf len then none else some .region

/-! ## The environment's other moves -/

/-- ClearStop (60_exceptions.md R295). -/
def clearStop (s : State) : Out :=
  if s.stopPending then .next { s with stopPending := false } else .refused .stopDoneDisabled

/-- The environment lays down an answer to the next call of a slot (30_encoding.md R100). -/
def layAnswer (a : Answer) (s : State) : Out := .next { s with answers := s.answers ++ [a] }

/-- The host writes a byte of its memory (70_reset_and_hazards.md R317), at any address: 20_memory.md R64 admits the
dispatch's accesses, and the spec does not say whether the host's own must lie in what it holds allocated (DESIGN CHOICE, log
entry 19). -/
def hostWrite (a : Half) (v : Byte) (s : State) : Out := .next { s with mem := Memory.write s.mem a.toNat v }

/-- The host's allocation becomes these regions (20_memory.md R64). -/
def hostAlloc (regions : List Region) (s : State) : Out := .next { s with alloc := regions }

/-! ## The end of a run (70_reset_and_hazards.md R326) -/

/-- The host presents no further operation. -/
def State.hostDone (s : State) : Bool :=
  s.script.all fun m => match m with
    | .host _ => false
    | .event _ => true
    | .check => true
    | .stopDone => true
    | .answer _ => true
    | .memWrite _ _ => true
    | .alloc _ => true

/-- No fault recorded and not refused: the premise of a claim about the block (60_exceptions.md R286). -/
abbrev State.Clean (s : State) : Prop := s.faults = [] ∧ s.refused = []

/-- A run is FINISHED: (a) to (d) of R326. -/
abbrev State.Finished (s : State) : Prop :=
  s.phase = .ready ∧ s.hostDone = true ∧ s.Clean ∧ s.roleState ≠ .busy ∧ s.roleState ≠ .stopping

/-- Some agent can step, by R326's four kinds of step: a delivery is enabled (60_exceptions.md R288), the host has an
operation to be accepted or a wait has a check (44_orchestrator.md R230, R231; neither in a faulted state, 60_exceptions.md
R286), or the Peripheral can clear stop_pending (60_exceptions.md R295). The reading is DEDUCED (log entry 20). -/
abbrev State.CanStep (s : State) : Prop :=
  s.deliveryEnabled = true ∨ (s.phase = .ready ∧ s.faults = [] ∧ s.hostDone = false) ∨ (s.phase ≠ .ready ∧ s.faults = []) ∨
    s.stopPending = true

/-- Stuck: no agent can step, but the run is not FINISHED (R326). -/
abbrev State.Stuck (s : State) : Prop := ¬s.CanStep ∧ ¬s.Finished

end Sys2Proof.Machine
end

