-- ==== Sys2Proof/Machine/Decision.lean ====
section
/-! DEFINITION. The policy decision encoder and the sequences the event rows share (41_dispatch_core.md R147 to R153,
43_responder_events.md R190 to R195). -/

namespace Sys2Proof.Machine

/-- The role_state that Terminal(A) leaves (41_dispatch_core.md R147). -/
def terminalRole (a : Byte) (old : RoleState) : RoleState :=
  if actStart a then .repeatedStartPending else if actStop a then .idle else old

/-- Terminal(A) (41_dispatch_core.md R147). -/
def State.terminal (s : State) (a : Byte) : State :=
  { s.issue true (actStart a) (actStop a) with roleState := terminalRole a s.roleState }

/-- ArbLost(A): only START is read (41_dispatch_core.md R148). -/
def State.arbLost (s : State) (a : Byte) : State :=
  { s.issue true (actStart a) false with roleState := if actStart a then .repeatedStartPending else .idle }

/-- Resp(A, hs) (41_dispatch_core.md R149). -/
def State.resp (s : State) (a : Byte) (hs : Bool) : State := s.issue (actAck a) (hs && actStart a) false

/-- Resp(A, hs, byte) (41_dispatch_core.md R149). -/
def State.respByte (s : State) (a : Byte) (hs : Bool) (byte : Byte) : State :=
  s.issueByte (actAck a) (hs && actStart a) false byte

/-- RxAck(): length is read first, then cursor (41_dispatch_core.md R150, 60_exceptions.md R289). -/
def withRxAck (s : State) (k : Bool → Out) : Out :=
  withField s.length .length s fun l => withField s.cursor .cursor s fun c => k (rxAckOf l c)

/-- Issue(CMD(RxAck(), 0, 0)) (42_controller_events.md R177, R179). -/
def issueRxAck (s : State) : Out := withRxAck s fun ack => .next (s.issue ack false false)

/-- Completion() (41_dispatch_core.md R151). -/
def completion (s : State) : Out :=
  withField s.lastEvent .lastEvent s fun ev =>
    let d := s.consult (.onComplete ev) ACT_STOP
    .next (d.2.terminal d.1)

/-- SendNextOrComplete() (41_dispatch_core.md R153); the fields are read in the order of the text. -/
def sendNextOrComplete (s : State) : Out :=
  withField s.cursor .cursor s fun c =>
    withField s.length .length s fun l =>
      if c < l then
        withField s.bufferBase .bufferBase s fun base =>
          memRead (bufAddr base c) s fun b =>
            .next ({ s with cursor := some (c + 1#16) }.issueByte true false false b)
      else completion s

/-- NackPath(): CONT wins over START and STOP (41_dispatch_core.md R152). -/
def nackPath (s : State) : Out :=
  withField s.lastEvent .lastEvent s fun ev =>
    let d := s.consult (.onNackOrArbitrationLoss ev) ACT_STOP
    if actCont d.1 then sendNextOrComplete d.2 else .next (d.2.terminal d.1)

/-- The START rows: in RepeatedStartPending nothing is issued and irq_flag stays 1 (42_controller_events.md R170, R171). -/
def startRow (s : State) : Out :=
  if s.roleState = .repeatedStartPending then .next s
  else withField s.targetAddress .targetAddress s fun a => .next (s.issueByte true false false a)

/-- The arbitration-lost row (42_controller_events.md R176). -/
def arbLostRow (code : Byte) (s : State) : Out :=
  let d := s.consult (.onNackOrArbitrationLoss code) 0x00#8
  .next (d.2.arbLost d.1)

/-- The store of a received byte, dropped where no slot is left: DATA is read first (42_controller_events.md R179,
R180). -/
def storeReceived (k : State → Out) (s : State) : Out :=
  let t := s.readPort .data
  withField t.cursor .cursor t fun c =>
    withField t.length .length t fun l =>
      if c < l then
        withField t.bufferBase .bufferBase t fun base =>
          memWrite (bufAddr base c) t.data t fun u => k { u with cursor := some (c + 1#16) }
      else k t

/-- RespAddrRx(code) (43_responder_events.md R190). -/
def respAddrRx (code : Byte) (s : State) : Out :=
  let t := { s with transferMode := .responderReceive }.readPort .data
  let d := t.consult (.onAddressMatch (matchedAddress t.data) code) ACT_ACK
  .next (d.2.resp d.1 false)

/-- A received byte offered to on_byte_received, with the row's choice whether START is honoured
(43_responder_events.md R191, R192). -/
def respData (hs : Bool) (code : Byte) (s : State) : Out :=
  let t := s.readPort .data
  let d := t.consult (.onByteReceived t.data code) ACT_NACK
  .next (d.2.resp d.1 hs)

/-- RespDataAck(code) (43_responder_events.md R191). -/
def respDataAck (code : Byte) (s : State) : Out := respData false code s

/-- RespDataNack(code) (43_responder_events.md R192). -/
def respDataNack (code : Byte) (s : State) : Out := respData true code s

/-- ByteRequested(): no callback, no command, a fault (43_responder_events.md R194). -/
def byteRequested (s : State) : Out :=
  if s.slots.get .onByteRequested then
    let d := s.policyCall .onByteRequested
    .next (d.2.respByte d.1.action false d.1.out)
  else raise .missingByteRequested s

/-- RespAddrTx(code), with the parameter ST_ADDR_LOADS_FIRST_BYTE; the answer of on_address_match is ignored
(43_responder_events.md R193). -/
def respAddrTx (loadsFirst : Bool) (code : Byte) (s : State) : Out :=
  let t := { s with transferMode := .responderTransmit }.readPort .data
  let u := if t.slots.get .onAddressMatch then (t.policyCall (.onAddressMatch (matchedAddress t.data) code)).2 else t
  if loadsFirst then byteRequested u else .next (u.issue true false false)

/-- The stop-received row (43_responder_events.md R208). -/
def stopReceivedRow (s : State) : Out :=
  let d := s.consult .onStopReceived ACT_ACK
  .next (d.2.resp d.1 true)

/-- LastByte(code) (43_responder_events.md R195). -/
def lastByte (code : Byte) (s : State) : Out :=
  let d := s.consult (.onLastByte code) ACT_ACK
  .next (d.2.resp d.1 true)

/-- The bus-error row: a stop is issued, Idle, no wait (43_responder_events.md R214). -/
def busErrorRow (s : State) : Out := .next { s.issue true false true with roleState := .idle }

end Sys2Proof.Machine
end

