-- ==== Sys2Proof/Machine/Controller.lean ====
section
/-! DEFINITION. The meanings of the controller-role events (42_controller_events.md). -/

namespace Sys2Proof.Machine

/-- START, 0x08 (42_controller_events.md R170). -/
def execStart (data : Byte) (s : State) : Out := deliver 0x08#8 data startRow s

/-- REP_START, 0x10 (42_controller_events.md R171). -/
def execRepStart (data : Byte) (s : State) : Out := deliver 0x10#8 data startRow s

/-- MT_SLA_ACK, 0x18 (42_controller_events.md R172). -/
def execMtSlaAck (data : Byte) (s : State) : Out := deliver 0x18#8 data sendNextOrComplete s

/-- MT_SLA_NACK, 0x20 (42_controller_events.md R173). -/
def execMtSlaNack (data : Byte) (s : State) : Out := deliver 0x20#8 data nackPath s

/-- MT_DATA_ACK, 0x28 (42_controller_events.md R174). -/
def execMtDataAck (data : Byte) (s : State) : Out := deliver 0x28#8 data sendNextOrComplete s

/-- MT_DATA_NACK, 0x30 (42_controller_events.md R175). -/
def execMtDataNack (data : Byte) (s : State) : Out := deliver 0x30#8 data nackPath s

/-- ARB_LOST, 0x38 (42_controller_events.md R176). -/
def execArbLost (data : Byte) (s : State) : Out := deliver 0x38#8 data (arbLostRow 0x38#8) s

/-- MR_SLA_ACK, 0x40 (42_controller_events.md R177). -/
def execMrSlaAck (data : Byte) (s : State) : Out := deliver 0x40#8 data issueRxAck s

/-- MR_SLA_NACK, 0x48 (42_controller_events.md R178). -/
def execMrSlaNack (data : Byte) (s : State) : Out := deliver 0x48#8 data nackPath s

/-- MR_DATA_ACK, 0x50 (42_controller_events.md R179). -/
def execMrDataAck (data : Byte) (s : State) : Out := deliver 0x50#8 data (storeReceived issueRxAck) s

/-- MR_DATA_NACK, 0x58 (42_controller_events.md R180). -/
def execMrDataNack (data : Byte) (s : State) : Out := deliver 0x58#8 data (storeReceived completion) s

end Sys2Proof.Machine
end

