-- ==== Sys2Proof/Machine/HostOps.lean ====
section
/-! DEFINITION. The meanings of the eight host operations: acceptance and first step (40_init_config.md, 44_orchestrator.md
R233, R240, R241, 45_stop.md R260). -/

namespace Sys2Proof.Machine

/-- The body shared by the two controller initialisations (40_init_config.md R120). -/
def initBody (baud : Byte) (prescaler : BitVec 2) (timeout : Half) (hc hn : Bool) (s : State) : Out :=
  let t := { s with slots := { s.slots with onComplete := hc, onNackOrArbitrationLoss := hn } }
  let u := (t.writeBaud baud).writePrescaler prescaler
  let v := { u with timeoutBudget := some timeout }.writeCtrl ctrlArm
  .next ({ v with roleState := .idle }.returned resultOk)

/-- initialize_controller (40_init_config.md R121). -/
def execInitController (fd : BitVec 32) (timeout : Half) (hc hn : Bool) (s : State) : Out :=
  accept none (Op.plain 1#4) (initBody (Config.timingFn fd).1 (Config.timingFn fd).2 timeout hc hn) s

/-- initialize_controller_raw (40_init_config.md R120). -/
def execInitControllerRaw (baud : Byte) (prescaler : BitVec 2) (timeout : Half) (hc hn : Bool) (s : State) : Out :=
  accept none (Op.plain 2#4) (initBody baud prescaler timeout hc hn) s

/-- CfgResp (40_init_config.md R122): all five responder slots are overwritten, role_state is not. -/
def configureBody (address : BitVec 7) (gc : Bool) (mask : BitVec 7) (h2 h3 h4 h5 h6 : Bool) (s : State) : Out :=
  let b := { s.slots with onAddressMatch := h2, onByteReceived := h3, onStopReceived := h4, onByteRequested := h5, onLastByte := h6 }
  let t := { s with slots := b }
  .next ((((t.writeAddr (addrReg address gc)).writeAmask (amaskReg mask)).writeCtrl ctrlArm).returned resultOk)

/-- configure_responder (40_init_config.md R122); the record latches its address (log entry 11). -/
def execConfigureResponder (address : BitVec 7) (gc : Bool) (mask : BitVec 7) (h2 h3 h4 h5 h6 : Bool) (s : State) : Out :=
  accept none { Op.plain 3#4 with address := address } (configureBody address gc mask h2 h3 h4 h5 h6) s

/-- reset (40_init_config.md R123). -/
def execReset (s : State) : Out :=
  accept none (Op.plain 4#4) (fun t => .next (t.doReset.returned resultOk)) s

/-- ShutDown (40_init_config.md R125). -/
def shutDownBody (s : State) : Out :=
  .next ({ { s with pullupEn := false }.writeCtrl ctrlDisable with roleState := .uninitialized }.returned resultOk)

/-- shut_down (40_init_config.md R125). -/
def execShutDown (s : State) : Out := accept none (Op.plain 5#4) shutDownBody s

/-- StopStart() (45_stop.md R260). -/
def stopStart (s : State) : Out :=
  .next (({ s with roleState := .stopping }.issue true false true).startWait .waitStop)

/-- stop (45_stop.md R260). -/
def execStop (s : State) : Out := accept none (Op.plain 6#4) stopStart s

/-- TransferStart() (44_orchestrator.md R233). -/
def transferStart (s : State) : Out :=
  if s.roleState = .uninitialized then .next (s.returned resultNotInitialized) else .next (s.startWait .waitQ1)

/-- transmit, with op.dir = 0 (44_orchestrator.md R240, R243). -/
def execTransmit (address : BitVec 7) (buf len : Half) (noStart posted : Bool) (s : State) : Out :=
  accept (regionRefusal buf len) ⟨7#4, false, address, buf, len, noStart, posted⟩ transferStart s

/-- receive, with op.dir = 1 and op.posted = 0 (44_orchestrator.md R241, R243). -/
def execReceive (address : BitVec 7) (buf len : Half) (noStart : Bool) (s : State) : Out :=
  accept (regionRefusal buf len) ⟨8#4, true, address, buf, len, noStart, false⟩ transferStart s

end Sys2Proof.Machine
end

