-- ==== Sys2Proof/Machine/Responder.lean ====
section
/-! DEFINITION. The meanings of the responder-role events and of the bus error (43_responder_events.md). -/

namespace Sys2Proof.Machine

/-- SR_SLA_ACK, 0x60 (43_responder_events.md R200). -/
def execSrSlaAck (data : Byte) (s : State) : Out := deliver 0x60#8 data (respAddrRx 0x60#8) s

/-- SR_ARB_LOST_SLA_ACK, 0x68 (43_responder_events.md R201). -/
def execSrArbLostSlaAck (data : Byte) (s : State) : Out := deliver 0x68#8 data (respAddrRx 0x68#8) s

/-- SR_GCALL_ACK, 0x70 (43_responder_events.md R202). -/
def execSrGcallAck (data : Byte) (s : State) : Out := deliver 0x70#8 data (respAddrRx 0x70#8) s

/-- SR_ARB_LOST_GCALL_ACK, 0x78 (43_responder_events.md R203). -/
def execSrArbLostGcallAck (data : Byte) (s : State) : Out := deliver 0x78#8 data (respAddrRx 0x78#8) s

/-- SR_DATA_ACK, 0x80 (43_responder_events.md R204). -/
def execSrDataAck (data : Byte) (s : State) : Out := deliver 0x80#8 data (respDataAck 0x80#8) s

/-- SR_DATA_NACK, 0x88 (43_responder_events.md R205). -/
def execSrDataNack (data : Byte) (s : State) : Out := deliver 0x88#8 data (respDataNack 0x88#8) s

/-- SR_GCALL_DATA_ACK, 0x90 (43_responder_events.md R206). -/
def execSrGcallDataAck (data : Byte) (s : State) : Out := deliver 0x90#8 data (respDataAck 0x90#8) s

/-- SR_GCALL_DATA_NACK, 0x98 (43_responder_events.md R207). -/
def execSrGcallDataNack (data : Byte) (s : State) : Out := deliver 0x98#8 data (respDataNack 0x98#8) s

/-- SR_STOP, 0xA0 (43_responder_events.md R208). -/
def execSrStop (data : Byte) (s : State) : Out := deliver 0xA0#8 data stopReceivedRow s

/-- ST_SLA_ACK, 0xA8 (43_responder_events.md R209). -/
def execStSlaAck (data : Byte) (s : State) : Out := deliver 0xA8#8 data (respAddrTx Config.stAddrLoadsFirstByte 0xA8#8) s

/-- ST_ARB_LOST_SLA_ACK, 0xB0 (43_responder_events.md R210). -/
def execStArbLostSlaAck (data : Byte) (s : State) : Out := deliver 0xB0#8 data (respAddrTx Config.stAddrLoadsFirstByte 0xB0#8) s

/-- ST_DATA_ACK, 0xB8 (43_responder_events.md R211). -/
def execStDataAck (data : Byte) (s : State) : Out := deliver 0xB8#8 data byteRequested s

/-- ST_DATA_NACK, 0xC0 (43_responder_events.md R212). -/
def execStDataNack (data : Byte) (s : State) : Out := deliver 0xC0#8 data (lastByte 0xC0#8) s

/-- ST_LAST_DATA, 0xC8 (43_responder_events.md R213). -/
def execStLastData (data : Byte) (s : State) : Out := deliver 0xC8#8 data (lastByte 0xC8#8) s

/-- BUS_ERROR, 0x00 (43_responder_events.md R214). -/
def execBusError (data : Byte) (s : State) : Out := deliver 0x00#8 data busErrorRow s

end Sys2Proof.Machine
end

