-- ==== Sys2Proof/Machine/Dispatch.lean ====
section
/-! DEFINITION. The dispatch of instructions to their meanings, one arm per constructor. -/

namespace Sys2Proof.Machine

def exec (i : Instr) (s : State) : Host.Outcome State Fault Refusal :=
  match i with
  | .busError data => Sys2Proof.Machine.execBusError data s
  | .start data => Sys2Proof.Machine.execStart data s
  | .repStart data => Sys2Proof.Machine.execRepStart data s
  | .mtSlaAck data => Sys2Proof.Machine.execMtSlaAck data s
  | .mtSlaNack data => Sys2Proof.Machine.execMtSlaNack data s
  | .mtDataAck data => Sys2Proof.Machine.execMtDataAck data s
  | .mtDataNack data => Sys2Proof.Machine.execMtDataNack data s
  | .arbLost data => Sys2Proof.Machine.execArbLost data s
  | .mrSlaAck data => Sys2Proof.Machine.execMrSlaAck data s
  | .mrSlaNack data => Sys2Proof.Machine.execMrSlaNack data s
  | .mrDataAck data => Sys2Proof.Machine.execMrDataAck data s
  | .mrDataNack data => Sys2Proof.Machine.execMrDataNack data s
  | .srSlaAck data => Sys2Proof.Machine.execSrSlaAck data s
  | .srArbLostSlaAck data => Sys2Proof.Machine.execSrArbLostSlaAck data s
  | .srGcallAck data => Sys2Proof.Machine.execSrGcallAck data s
  | .srArbLostGcallAck data => Sys2Proof.Machine.execSrArbLostGcallAck data s
  | .srDataAck data => Sys2Proof.Machine.execSrDataAck data s
  | .srDataNack data => Sys2Proof.Machine.execSrDataNack data s
  | .srGcallDataAck data => Sys2Proof.Machine.execSrGcallDataAck data s
  | .srGcallDataNack data => Sys2Proof.Machine.execSrGcallDataNack data s
  | .srStop data => Sys2Proof.Machine.execSrStop data s
  | .stSlaAck data => Sys2Proof.Machine.execStSlaAck data s
  | .stArbLostSlaAck data => Sys2Proof.Machine.execStArbLostSlaAck data s
  | .stDataAck data => Sys2Proof.Machine.execStDataAck data s
  | .stDataNack data => Sys2Proof.Machine.execStDataNack data s
  | .stLastData data => Sys2Proof.Machine.execStLastData data s
  | .initController fd timeout hc hn => Sys2Proof.Machine.execInitController fd timeout hc hn s
  | .initControllerRaw baud prescaler timeout hc hn => Sys2Proof.Machine.execInitControllerRaw baud prescaler timeout hc hn s
  | .configureResponder address gc mask h2 h3 h4 h5 h6 => Sys2Proof.Machine.execConfigureResponder address gc mask h2 h3 h4 h5 h6 s
  | .reset => Sys2Proof.Machine.execReset s
  | .shutDown => Sys2Proof.Machine.execShutDown s
  | .stop => Sys2Proof.Machine.execStop s
  | .transmit address buf len noStart posted => Sys2Proof.Machine.execTransmit address buf len noStart posted s
  | .receive address buf len noStart => Sys2Proof.Machine.execReceive address buf len noStart s

end Sys2Proof.Machine
end

