-- ==== Sys2Proof/Machine/Orchestrator.lean ====
section
/-! DEFINITION. The Master Transaction Orchestrator after acceptance: the bounded wait, arming, the two start branches, the
repeated start, completion, and the outcomes of the stop wait (44_orchestrator.md, 45_stop.md R261, R262). -/

namespace Sys2Proof.Machine

/-- AfterStart(): a posted transmit returns NoWait, any other transfer waits for completion (44_orchestrator.md R238). -/
def afterStart (s : State) : Out :=
  withField s.op .op s fun o =>
    if o.selector = 7#4 ∧ o.posted = true then .next (s.returned resultNoWait)
    else .next (s.startWait .waitDone)

/-- IdleBranch() (44_orchestrator.md R235). -/
def idleBranch (s : State) : Out :=
  withField s.op .op s fun o =>
    afterStart { (if o.noStart then s else s.issue true true false) with roleState := .busy }

/-- RepeatedStartBranch(): no command, no_start is not read (44_orchestrator.md R236). -/
def repeatedStartBranch (s : State) : Out := .next (s.startWait .waitRS)

/-- The mode a transfer arms (44_orchestrator.md R234). -/
def armedMode (dir : Bool) : TransferMode := if dir then .controllerReceive else .controllerTransmit

/-- The five writes of the arming (44_orchestrator.md R234). -/
def State.armed (s : State) (o : Op) : State :=
  { s with
    transferMode := armedMode o.dir
    targetAddress := some (slaByte o.address o.dir)
    bufferBase := some o.buf
    length := some o.len
    cursor := some 0#16 }

/-- ArmAndStart(), the success of the first wait (44_orchestrator.md R234). -/
def armAndStart (s : State) : Out :=
  withField s.op .op s fun o =>
    if s.roleState = .repeatedStartPending then repeatedStartBranch (s.armed o) else idleBranch (s.armed o)

/-- ReissueAddress(), the success of the repeated-start wait (44_orchestrator.md R237). -/
def reissueAddress (s : State) : Out :=
  withField s.targetAddress .targetAddress s fun a =>
    afterStart { s.issueByte true false false a with roleState := .busy }

/-- A failed check: the timeout action once wait_k is the budget, else one delay is counted (44_orchestrator.md R231). -/
def checkFailed (onTimeout : State) (s : State) : Out :=
  withField s.timeoutBudget .timeoutBudget s fun t =>
    if s.waitK = t then .next onTimeout else .next { s with waitK := s.waitK + 1#16 }

/-- The first wait for quiescence (44_orchestrator.md R232). -/
def checkQ1 (s : State) : Out :=
  if s.quiescent then armAndStart s else checkFailed (s.returned resultTimedOut) s

/-- The repeated-start wait: START or REP_START has been reported (44_orchestrator.md R232, R237). -/
def checkRS (s : State) : Out :=
  withField s.lastEvent .lastEvent s fun ev =>
    if ev = 0x08#8 ∨ ev = 0x10#8 then reissueAddress s
    else checkFailed (s.doReset.returned resultTimedOut) s

/-- The completion wait: the result is last_event (44_orchestrator.md R239). -/
def checkDone (s : State) : Out :=
  if s.quiescent then withField s.lastEvent .lastEvent s fun ev => .next (s.returned ev)
  else checkFailed (s.returned resultTimedOut) s

/-- The stop wait (45_stop.md R261, R262). -/
def checkStop (s : State) : Out :=
  if s.stopPending then checkFailed (s.doReset.returned resultTimedOut) s
  else .next ({ s with roleState := .idle }.returned resultOk)

/-- Check(), enabled in the four waits and in no faulted state (44_orchestrator.md R231, 60_exceptions.md R286). -/
def check (s : State) : Out :=
  unlessFaulted s <|
    match s.phase with
    | .ready => .refused .checkDisabled
    | .waitQ1 => checkQ1 s
    | .waitRS => checkRS s
    | .waitDone => checkDone s
    | .waitStop => checkStop s

/-- No move of the environment is left: the Orchestrator checks while it waits; with phase Ready the machine stops where it
is stuck, and otherwise the state stays, FINISHED or open to a step of the Peripheral (70_reset_and_hazards.md R326; log
entries 1, 20). -/
def idleStep (s : State) : Out :=
  if s.phase = .ready then unlessFaulted s (if s.Stuck then .fault .stuck else .next s) else check s

end Sys2Proof.Machine
end

