-- ==== Sys2Proof/Machine/Fetch.lean ====
section
/-! DEFINITION. Taking the next move of the script: an instruction to run, or a step that is no row of the opcode table
(a Check, ClearStop, a reserved status code, a refused record, a move of the host or of the policy oracle). -/

namespace Sys2Proof.Machine

/-- What the head of the script is: an instruction and the state it runs in, or a step already taken. -/
inductive Fetched where
  | run (i : Instr) (s : State)
  | done (o : Out)

/-- A rejected event or record: a reserved status code is dispatched and faults (30_encoding.md R83); a record that
30_encoding.md R96 refuses sets the refusal mark. -/
def rejected (r : Reject) (s : State) : Out :=
  match r with
  | .truncated => .refused .truncatedInput
  | .reservedStatus sr data => deliverReserved sr data s
  | .reservedSelector => refuse .selector s
  | .address => refuse .address s
  | .timing => refuse .timing s
  | .region => refuse .region s

/-- The bytes of a port decoded, with the state after the move is taken from the script. -/
def fetchBytes (p : Port) (bytes : List Byte) (s : State) : Fetched :=
  match decode p bytes with
  | .instr i _ => .run i s
  | .reject r => .done (rejected r s)

/-- The next move. A host record presented while phase is not Ready stays presented, and the Orchestrator checks
(30_encoding.md R96, 44_orchestrator.md R230). -/
def fetch (s : State) : Fetched :=
  match s.script with
  | [] => .done (idleStep s)
  | .event bytes :: rest => fetchBytes .event bytes { s with script := rest }
  | .host record :: rest =>
    if s.phase = .ready then fetchBytes .host record { s with script := rest } else .done (check s)
  | .check :: rest => .done (check { s with script := rest })
  | .stopDone :: rest => .done (clearStop { s with script := rest })
  | .answer a :: rest => .done (layAnswer a { s with script := rest })
  | .memWrite a v :: rest => .done (hostWrite a v { s with script := rest })
  | .alloc regions :: rest => .done (hostAlloc regions { s with script := rest })

/-- The move that brings bytes in by a port. -/
def portMove : Port → List Byte → Move
  | .event, bytes => .event bytes
  | .host, record => .host record

/-- s with bytes as the next move and the port open for them: an event needs delivery enabled (60_exceptions.md R288), a
record needs phase = Ready (44_orchestrator.md R230), and neither runs in a faulted state (60_exceptions.md R286). -/
def State.presented (s : State) (p : Port) (bytes : List Byte) : State :=
  let t := { s with script := portMove p bytes :: s.script, faults := [] }
  match p with
  | .event => { t with ctrlEn := true, ctrlIe := true, irqFlag := false }
  | .host => { t with phase := .ready }

end Sys2Proof.Machine
end

