-- ==== Sys2Proof/Machine/Step.lean ====
section
/-! DEFINITION. One step of the machine: the next move of the script. -/

namespace Sys2Proof.Machine

/-- One step. -/
def step (s : State) : Host.Outcome State Fault Refusal :=
  match fetch s with
  | .run i t => exec i t
  | .done o => o

/-- s with a word of the opcode table as the next move (log entry 12). -/
def State.withFetchWord (s : State) (nbits w : Nat) : State :=
  s.presented (tablePort nbits w) (tableBytes nbits w)

end Sys2Proof.Machine
end

