-- ==== Sys2Proof/Safety.lean ====
section
/-! DEFINITION. The terms the claims use: the invariant, and the effect of a delivery's prologue
and of a command written out field by field. -/

namespace Sys2Proof.Machine

/-! ## The invariant -/

/-- `cursor <= length` whenever both are written (10_state.md R23, R47). -/
def State.CursorBounded (s : State) : Prop :=
  ∀ c l, s.cursor = some c → s.length = some l → c.toNat ≤ l.toNat

/-- While a wait runs, wait_k is at most the budget (10_state.md R33). -/
def State.WaitBounded (s : State) : Prop :=
  s.phase ≠ .ready → ∀ t, s.timeoutBudget = some t → s.waitK.toNat ≤ t.toNat

/-- Stopping is seen only during the stop wait (44_orchestrator.md R233). -/
def State.StoppingInWaitStop (s : State) : Prop := s.roleState = .stopping → s.phase = .waitStop

/-- The armed region does not wrap (20_memory.md R61). -/
def State.RegionInside (s : State) : Prop :=
  ∀ b l, s.bufferBase = some b → s.length = some l → b.toNat + l.toNat ≤ 2 ^ 16

/-- The latched record's region does not wrap (30_encoding.md R96). -/
def State.OpInside (s : State) : Prop := ∀ o, s.op = some o → o.buf.toNat + o.len.toNat ≤ 2 ^ 16

/-- A transfer's wait has a latched transfer, and the role is not Uninitialized (44_orchestrator.md R230, R233). -/
def State.TransferLatched (s : State) : Prop :=
  s.phase = .waitQ1 ∨ s.phase = .waitRS ∨ s.phase = .waitDone →
    s.roleState ≠ .uninitialized ∧ ∃ o, s.op = some o ∧ (o.selector = 7#4 ∨ o.selector = 8#4)

/-- The five transfer fields are written together (44_orchestrator.md R234). -/
def State.ArmedTogether (s : State) : Prop :=
  s.bufferBase.isSome = s.length.isSome ∧ s.length.isSome = s.cursor.isSome ∧ s.cursor.isSome = s.targetAddress.isSome

/-- last_event is the status field of SR (10_state.md R24, 41_dispatch_core.md R141). -/
def State.EventRecorded (s : State) : Prop := ∀ e, s.lastEvent = some e → e = statusCode s.sr

/-- The pending flag is held only by a START report, unless a fault is recorded (41_dispatch_core.md R144,
60_exceptions.md R292). -/
def State.HeldByStart (s : State) : Prop :=
  s.irqFlag = true → s.faults = [] → s.lastEvent = some 0x08#8 ∨ s.lastEvent = some 0x10#8

/-- At most one fault is recorded (60_exceptions.md R286). -/
def State.OneFault (s : State) : Prop := s.faults.length ≤ 1

/-- The invariant of the machine. -/
structure State.Inv (s : State) : Prop where
  memory : Memory.wf s.mem = true
  cursor : s.CursorBounded
  wait : s.WaitBounded
  stopping : s.StoppingInWaitStop
  region : s.RegionInside
  opRegion : s.OpInside
  latched : s.TransferLatched
  armed : s.ArmedTogether
  event : s.EventRecorded
  held : s.HeldByStart
  fault : s.OneFault

/-! ## Effects, field by field -/

/-- What every dispatch does before its row: the Peripheral writes the status field and DATA and sets the flag
(41_dispatch_core.md R140), the Dispatcher reads SR and records the code (R141). -/
def State.afterReport (s : State) (code data : Byte) : State :=
  { s with
    sr := (s.sr &&& 0x07#8) ||| code
    data := data
    irqFlag := true
    lastEvent := some code
    portLog := s.portLog ++ [.read .sr] }

/-- DATA read by the row. -/
def State.afterDataRead (s : State) : State := { s with portLog := s.portLog ++ [.read .data] }

/-- The effect of one command (30_encoding.md R85, 41_dispatch_core.md R143). -/
def State.afterCommand (s : State) (ack sta sto : Bool) : State :=
  { s with
    irqFlag := false
    ctrlEn := true
    ctrlIe := true
    ctrlEa := ack
    ctrlSta := sta
    stopPending := s.stopPending || sto
    portLog := s.portLog ++ [.write .ctrl (cmd ack sta sto)] }

/-- The effect of a command that sends a byte (41_dispatch_core.md R143). -/
def State.afterByteCommand (s : State) (ack sta sto : Bool) (byte : Byte) : State :=
  { s with
    data := byte
    irqFlag := false
    ctrlEn := true
    ctrlIe := true
    ctrlEa := ack
    ctrlSta := sta
    stopPending := s.stopPending || sto
    portLog := s.portLog ++ [.write .data byte, .write .ctrl (cmd ack sta sto)] }

/-- The effect of Terminal(A), with A.START and A.STOP (41_dispatch_core.md R147). -/
def State.afterTerminal (s : State) (start stop : Bool) : State :=
  { s.afterCommand true start stop with
    roleState := if start then .repeatedStartPending else if stop then .idle else s.roleState }

/-- The effect of arming the peripheral: CTRL <- 0xC5 (30_encoding.md R86). -/
def State.afterArm (s : State) : State :=
  { s with
    irqFlag := false
    ctrlEn := true
    ctrlIe := true
    ctrlEa := true
    ctrlSta := false
    portLog := s.portLog ++ [.write .ctrl 0xC5#8] }

/-- The effect of DISABLE: CTRL <- 0x00 (20_memory.md R69, 30_encoding.md R86). -/
def State.afterDisable (s : State) : State :=
  { s with
    irqFlag := false
    ctrlEn := false
    ctrlIe := false
    ctrlEa := false
    ctrlSta := false
    stopPending := false
    portLog := s.portLog ++ [.write .ctrl 0x00#8] }

/-- The effect of DoReset (40_init_config.md R124). -/
def State.afterReset (s : State) : State := { s.afterDisable.afterArm with roleState := .idle }

/-- The effect of Return(v) (00_scope.md R12). -/
def State.afterReturn (s : State) (v : Byte) : State := { s with phase := .ready, results := s.results ++ [v] }

/-- A port access is a write of CTRL. -/
def PortOp.isCtrlWrite : PortOp → Bool
  | .write .ctrl _ => true
  | .write .data _ => false
  | .write .sr _ => false
  | .write .baud _ => false
  | .write .addr _ => false
  | .write .amask _ => false
  | .read _ => false

/-- What a refused record leaves: the mark with its name, nothing else (60_exceptions.md R285). -/
def State.afterRefusal (s : State) (n : RefuseName) : State :=
  { s with refused := if n ∈ s.refused then s.refused else s.refused ++ [n] }

end Sys2Proof.Machine
end

