-- ==== Sys2Proof/Certificates/Slice0/Obligations.lean ====
section
/-! DEFINITION. The statements for the provers, from the numbered rules of spec/. -/

open Sys2Proof Sys2Proof.Machine

/-! ## Encoding -/

/-- Decoding the encoding of any well-formed instruction, with any bytes after it, gives the instruction and those bytes.
The byte layout of host records is the model's (log entry 8). -/
def Obligations.DecodeEncode : Prop :=
  ∀ (i : Instr) (rest : List Byte), i.wf = true → decode i.port (encode i ++ rest) = .instr i rest

/-- Everything the decoder accepts is well formed and belongs to the port it was read from. -/
def Obligations.DecodedIsWellFormed : Prop :=
  ∀ (p : Port) (bytes : List Byte) (i : Instr) (rest : List Byte),
    decode p bytes = .instr i rest → i.wf = true ∧ i.port = p

/-- R80, R83: bits [2:0] of SR take no part in decoding; exactly the status fields 26 to 31 are reserved. -/
def Obligations.StatusFieldAloneDecodes : Prop :=
  ∀ (sr data : Byte) (rest : List Byte),
    (∀ i, decode .event (sr :: data :: rest) = .instr i rest ↔ decode .event ((sr &&& 0xF8#8) :: data :: rest) = .instr i rest) ∧
    ((∃ i, decode .event (sr :: data :: rest) = .instr i rest) ↔ (sr.extractLsb' 3 5).toNat ≤ 25) ∧
    (25 < (sr.extractLsb' 3 5).toNat → decode .event (sr :: data :: rest) = .reject (.reservedStatus sr data))

/-- A few words written out from R81 and R95 decode to what they stand for. -/
def Obligations.SampleWordsDecode : Prop :=
  decode .event [0x1B#8, 0x00#8] = .instr (.mtSlaAck 0x00#8) [] ∧
  decode .event [0x0C#8, 0x55#8] = .instr (.start 0x55#8) [] ∧
  decode .event [0xC8#8, 0x00#8] = .instr (.stLastData 0x00#8) [] ∧
  decode .event [0xD2#8, 0x00#8] = .reject (.reservedStatus 0xD2#8 0x00#8) ∧
  decode .host [0x04#8] = .instr .reset [] ∧
  decode .host [0x07#8, 0x50#8, 0x00#8, 0x01#8, 0x02#8, 0x00#8, 0x00#8, 0x02#8]
    = .instr (.transmit 0x50#7 0x0100#16 2#16 false true) [] ∧
  decode .host [0x0A#8] = .reject .reservedSelector

/-- R85: the eight command words. -/
def Obligations.CommandWords : Prop :=
  cmd false false false = 0x85#8 ∧ cmd true false false = 0xC5#8 ∧ cmd false true false = 0xA5#8 ∧
  cmd true true false = 0xE5#8 ∧ cmd false false true = 0x95#8 ∧ cmd true false true = 0xD5#8 ∧
  cmd false true true = 0xB5#8 ∧ cmd true true true = 0xF5#8

/-- R89 to R92: the SLA byte, ADDR, AMASK and the matched address, as numbers. -/
def Obligations.AddressBytes : Prop :=
  (∀ (a : BitVec 7) (b : Bool), (slaByte a b).toNat = 2 * a.toNat + b.toNat ∧ (addrReg a b).toNat = 2 * a.toNat + b.toNat) ∧
  (∀ m : BitVec 7, (amaskReg m).toNat = 2 * m.toNat) ∧
  (∀ d : Byte, (matchedAddress d).toNat = d.toNat / 2)

/-! ## Steps -/

/-- A step runs the decoded instruction: an event at the head of the script always, a host record when phase is Ready.
The state exec runs in is s with the move taken from the script. -/
def Obligations.StepRunsDecoded : Prop :=
  ∀ (s : State) (bytes : List Byte) (rest : List Move) (i : Instr) (tail : List Byte),
    (s.script = .event bytes :: rest → decode .event bytes = .instr i tail → step s = exec i { s with script := rest }) ∧
    (s.script = .host bytes :: rest → s.phase = .ready → decode .host bytes = .instr i tail →
      step s = exec i { s with script := rest })

/-- A host record presented while phase is not Ready is neither accepted nor refused: the Orchestrator checks and the
record stays at the head of the script. -/
def Obligations.HostWaitsWhileBusy : Prop :=
  ∀ (s : State), s.phase ≠ .ready →
    (∀ record rest, s.script = .host record :: rest → step s = check s) ∧
    (∀ i : Instr, i.port = .host → exec i s = .next s)

/-- The moves that are no instruction: a Check, ClearStop, an answer, the host's memory and allocation, and no move. The
script, the host's write at any address and the reading of R326's stuck are the model's (log entries 1, 19, 20). -/
def Obligations.OtherMovesStep : Prop :=
  ∀ (s : State) (rest : List Move),
    (s.script = .check :: rest → step s = check { s with script := rest }) ∧
    (s.script = .stopDone :: rest → s.stopPending = true → step s = .next { s with script := rest, stopPending := false }) ∧
    (s.script = .stopDone :: rest → s.stopPending = false → step s = .refused .stopDoneDisabled) ∧
    (∀ a, s.script = .answer a :: rest → step s = .next { s with script := rest, answers := s.answers ++ [a] }) ∧
    (∀ a v, s.script = .memWrite a v :: rest → step s = .next { s with script := rest, mem := Memory.write s.mem a.toNat v }) ∧
    (∀ r, s.script = .alloc r :: rest → step s = .next { s with script := rest, alloc := r }) ∧
    (s.script = [] → s.phase ≠ .ready → step s = check s) ∧
    (s.script = [] → s.phase = .ready → s.faults = [] → ¬s.Stuck → step s = .next s) ∧
    (s.script = [] → s.phase = .ready → s.faults = [] → s.Stuck → step s = .fault .stuck) ∧
    (∀ r rs, s.script = [] → s.faults = r :: rs → step s = .fault (.recorded r))

/-- R288, R101, R286: an event, of an instruction or of a reserved code, runs exactly while delivery is enabled, whatever its
code and DATA byte; otherwise the script is ill formed, and in a faulted state there is no step. -/
def Obligations.DeliveryNeedsEnable : Prop :=
  ∀ (s : State),
    (∀ i : Instr, i.port = .event →
      (s.faults = [] →
        (exec i s = .refused .deliveryDisabled ↔ ¬(s.ctrlEn = true ∧ s.ctrlIe = true ∧ s.irqFlag = false))) ∧
      (∀ r rs, s.faults = r :: rs → exec i s = .fault (.recorded r))) ∧
    (∀ sr data : Byte,
      (s.faults = [] →
        (deliverReserved sr data s = .refused .deliveryDisabled ↔ ¬(s.ctrlEn = true ∧ s.ctrlIe = true ∧ s.irqFlag = false))) ∧
      (∀ r rs, s.faults = r :: rs → deliverReserved sr data s = .fault (.recorded r)))

/-- R286: in a state with a recorded fault the Orchestrator and the acceptance of a well-formed operation have no step. R326:
in a stuck state no check, no delivery and no ClearStop has one, and the state is not FINISHED; it is stuck exactly if it is not
FINISHED, no delivery is enabled, stop_pending is 0, and either a fault is recorded or phase is Ready with no operation
presented (a reading of R326 that is DEDUCED, log entry 20). -/
def Obligations.FaultedHasNoStep : Prop :=
  (∀ (s : State) (r : FaultReason) (rs : List FaultReason), s.faults = r :: rs →
    check s = .fault (.recorded r) ∧
    (∀ i : Instr, i.wf = true → i.port = .host → s.phase = .ready → exec i s = .fault (.recorded r))) ∧
  (∀ s : State, s.Stuck →
    (∀ t, check s ≠ .next t) ∧ (∀ i t, i.port = .event → exec i s ≠ .next t) ∧
    (∀ sr data t, deliverReserved sr data s ≠ .next t) ∧ (∀ t, clearStop s ≠ .next t) ∧ ¬s.Finished) ∧
  (∀ s : State, s.Stuck ↔ (¬s.Finished ∧ s.deliveryEnabled = false ∧ s.stopPending = false ∧
    (s.faults ≠ [] ∨ (s.phase = .ready ∧ s.hostDone = true))))

/-- R83, R286: a delivered reserved code is recorded in last_event, then faults; no command, irq_flag stays 1. -/
def Obligations.ReservedStatusFaults : Prop :=
  ∀ (s : State) (sr data : Byte) (tail : List Byte) (rest : List Move),
    s.script = .event (sr :: data :: tail) :: rest → s.deliveryEnabled = true → 0xD0 ≤ sr.toNat →
    step s = .next { ({ s with script := rest }.afterReport (sr &&& 0xF8#8) data) with
      faults := [.unrecognisedEvent (sr &&& 0xF8#8)] }

/-- R146: a present callback answers what the environment laid down for its slot, or a free value; an absent one gives the
default. The call changes nothing but the answers left, the count of free answers and the record of calls. That the answer is
the oldest one laid down for the slot, or else a free value of Config, is the model's form of R146's free input (DESIGN CHOICE,
log entry 6). -/
def Obligations.PolicyAnswer : Prop :=
  ∀ (s : State) (c : Call) (dflt : Byte),
    (s.slots.get c.slot = false → s.consult c dflt = (dflt, s)) ∧
    (∀ before a after, s.slots.get c.slot = true → s.answers = before ++ a :: after → a.slot = c.slot →
      (∀ b ∈ before, b.slot ≠ c.slot) →
      s.consult c dflt = (a.action, { s with answers := before ++ after, calls := s.calls ++ [c] }) ∧
      s.policyCall c = (a, { s with answers := before ++ after, calls := s.calls ++ [c] })) ∧
    (s.slots.get c.slot = true → (∀ b ∈ s.answers, b.slot ≠ c.slot) →
      s.consult c dflt = (Config.policyAction s.freeCount, { s with freeCount := s.freeCount + 1, calls := s.calls ++ [c] }) ∧
      s.policyCall c = (⟨c.slot, Config.policyAction s.freeCount, Config.policyOut s.freeCount⟩,
        { s with freeCount := s.freeCount + 1, calls := s.calls ++ [c] }))

/-! ## Controller events -/

/-- R170, R171: in RepeatedStartPending the START rows issue nothing and irq_flag stays 1; otherwise they send the target
address and continue, or fault where no transfer was ever armed. -/
def Obligations.StartRow : Prop :=
  ∀ (s : State) (d : Byte) (i : Instr) (code : Byte),
    (i, code) ∈ [(Instr.start d, 0x08#8), (Instr.repStart d, 0x10#8)] → s.deliveryEnabled = true →
    (s.roleState = .repeatedStartPending → exec i s = .next (s.afterReport code d)) ∧
    (∀ a, s.roleState ≠ .repeatedStartPending → s.targetAddress = some a →
      exec i s = .next ((s.afterReport code d).afterByteCommand true false false a)) ∧
    (s.roleState ≠ .repeatedStartPending → s.targetAddress = none →
      exec i s = .next { s.afterReport code d with faults := [.unwrittenRead .targetAddress] })

/-- R153, R172, R174: an acknowledge with bytes left sends the next buffer byte, advances the cursor and continues (a byte
the host does not hold allocated has no step); with none left the completion sequence runs: on_complete's action, or STOP.
Fields never armed fault, the cursor first. -/
def Obligations.AckRow : Prop :=
  ∀ (s u : State) (d : Byte) (i : Instr) (code : Byte),
    (i, code) ∈ [(Instr.mtSlaAck d, 0x18#8), (Instr.mtDataAck d, 0x28#8)] →
    s.deliveryEnabled = true → u = s.afterReport code d →
    (s.cursor = none → exec i s = .next { u with faults := [.unwrittenRead .cursor] }) ∧
    (∀ c, s.cursor = some c → s.length = none → exec i s = .next { u with faults := [.unwrittenRead .length] }) ∧
    (∀ c l, s.cursor = some c → s.length = some l → c.toNat < l.toNat →
      (s.bufferBase = none → exec i s = .next { u with faults := [.unwrittenRead .bufferBase] }) ∧
      (∀ base, s.bufferBase = some base → s.admitted (base + c) = false →
        exec i s = .fault (.bufferNotAdmitted (base + c))) ∧
      (∀ base, s.bufferBase = some base → s.admitted (base + c) = true →
        exec i s = .next ({ u with cursor := some (c + 1#16) }.afterByteCommand true false false
          (Memory.read s.mem (base + c).toNat)))) ∧
    (∀ c l, s.cursor = some c → s.length = some l → l.toNat ≤ c.toNat →
      (s.slots.onComplete = false → exec i s = .next (u.afterTerminal false true)) ∧
      (∀ a t, s.slots.onComplete = true → u.policyCall (.onComplete code) = (a, t) →
        exec i s = .next (t.afterTerminal (a.action.getLsbD 2) (a.action.getLsbD 3))))

/-- R152, R173, R175, R178: a NACK without CONT ends the transfer as the callback says, by default with a stop. With CONT,
whatever START and STOP say, the next byte is sent if one is left, and with none left the completion sequence runs in the
same dispatch; fields never armed fault there. -/
def Obligations.NackRow : Prop :=
  ∀ (s u : State) (d : Byte) (i : Instr) (code : Byte),
    (i, code) ∈ [(Instr.mtSlaNack d, 0x20#8), (Instr.mtDataNack d, 0x30#8), (Instr.mrSlaNack d, 0x48#8)] →
    s.deliveryEnabled = true → u = s.afterReport code d →
    (s.slots.onNackOrArbitrationLoss = false → exec i s = .next (u.afterTerminal false true)) ∧
    (∀ a v, s.slots.onNackOrArbitrationLoss = true → u.policyCall (.onNackOrArbitrationLoss code) = (a, v) →
      (a.action.getLsbD 4 = false → exec i s = .next (v.afterTerminal (a.action.getLsbD 2) (a.action.getLsbD 3))) ∧
      (a.action.getLsbD 4 = true →
        (s.cursor = none → exec i s = .next { v with faults := [.unwrittenRead .cursor] }) ∧
        (∀ c, s.cursor = some c → s.length = none → exec i s = .next { v with faults := [.unwrittenRead .length] }) ∧
        (∀ c l, s.cursor = some c → s.length = some l → c.toNat < l.toNat →
          (s.bufferBase = none → exec i s = .next { v with faults := [.unwrittenRead .bufferBase] }) ∧
          (∀ base, s.bufferBase = some base → s.admitted (base + c) = false →
            exec i s = .fault (.bufferNotAdmitted (base + c))) ∧
          (∀ base, s.bufferBase = some base → s.admitted (base + c) = true →
            exec i s = .next ({ v with cursor := some (c + 1#16) }.afterByteCommand true false false
              (Memory.read s.mem (base + c).toNat)))) ∧
        (∀ c l, s.cursor = some c → s.length = some l → l.toNat ≤ c.toNat →
          (s.slots.onComplete = false → exec i s = .next (v.afterTerminal false true)) ∧
          (∀ b t, s.slots.onComplete = true → v.policyCall (.onComplete code) = (b, t) →
            exec i s = .next (t.afterTerminal (b.action.getLsbD 2) (b.action.getLsbD 3))))))

/-- R148, R176: arbitration loss releases the bus and goes Idle; only START in the answer changes that. -/
def Obligations.ArbitrationLost : Prop :=
  ∀ (s : State) (d : Byte), s.deliveryEnabled = true →
    (s.slots.onNackOrArbitrationLoss = false →
      exec (.arbLost d) s = .next { (s.afterReport 0x38#8 d).afterCommand true false false with roleState := .idle }) ∧
    (∀ a t, s.slots.onNackOrArbitrationLoss = true →
      (s.afterReport 0x38#8 d).policyCall (.onNackOrArbitrationLoss 0x38#8) = (a, t) →
      exec (.arbLost d) s = .next { t.afterCommand true (a.action.getLsbD 2) false with
        roleState := if a.action.getLsbD 2 then .repeatedStartPending else .idle })

/-- R150, R177: the address acknowledge of a receive acknowledges the next byte unless at most one slot remains; fields
never armed fault, the length first, which R150's text does not order in so many words (R289's order of execution; DEDUCED,
log entry 18). -/
def Obligations.ReceiveAddressAcknowledged : Prop :=
  ∀ (s : State) (d : Byte), s.deliveryEnabled = true →
    (∀ c l, s.cursor = some c → s.length = some l →
      exec (.mrSlaAck d) s = .next ((s.afterReport 0x40#8 d).afterCommand (decide (2 ≤ (l - c).toNat)) false false)) ∧
    (s.length = none → exec (.mrSlaAck d) s = .next { s.afterReport 0x40#8 d with faults := [.unwrittenRead .length] }) ∧
    (∀ l, s.length = some l → s.cursor = none →
      exec (.mrSlaAck d) s = .next { s.afterReport 0x40#8 d with faults := [.unwrittenRead .cursor] })

/-- R179: a received byte is stored at the cursor, which advances; with no slot left it is dropped; the next byte is
acknowledged unless at most one slot remains. Fields never armed fault; a store the host's memory does not admit has no
step. -/
def Obligations.ReceivedByteStored : Prop :=
  ∀ (s u : State) (d : Byte), s.deliveryEnabled = true → u = (s.afterReport 0x50#8 d).afterDataRead →
    (s.cursor = none → exec (.mrDataAck d) s = .next { u with faults := [.unwrittenRead .cursor] }) ∧
    (∀ c, s.cursor = some c → s.length = none →
      exec (.mrDataAck d) s = .next { u with faults := [.unwrittenRead .length] }) ∧
    (∀ c l, s.cursor = some c → s.length = some l → c.toNat < l.toNat →
      (s.bufferBase = none → exec (.mrDataAck d) s = .next { u with faults := [.unwrittenRead .bufferBase] }) ∧
      (∀ base, s.bufferBase = some base → s.admitted (base + c) = false →
        exec (.mrDataAck d) s = .fault (.bufferNotAdmitted (base + c))) ∧
      (∀ base, s.bufferBase = some base → s.admitted (base + c) = true →
        exec (.mrDataAck d) s = .next ({ u with
          mem := Memory.write s.mem (base + c).toNat d
          cursor := some (c + 1#16) }.afterCommand (decide (2 ≤ (l - (c + 1#16)).toNat)) false false))) ∧
    (∀ c l, s.cursor = some c → s.length = some l → l.toNat ≤ c.toNat →
      exec (.mrDataAck d) s = .next (u.afterCommand (decide (2 ≤ (l - c).toNat)) false false))

/-- R180, R151: the final byte is stored at the cursor, which advances (dropped with no slot left), then the completion
sequence runs: on_complete's action, or STOP. Fields never armed fault; a store the host's memory does not admit has no
step. -/
def Obligations.FinalByteStored : Prop :=
  ∀ (s u : State) (d : Byte), s.deliveryEnabled = true → u = (s.afterReport 0x58#8 d).afterDataRead →
    (s.cursor = none → exec (.mrDataNack d) s = .next { u with faults := [.unwrittenRead .cursor] }) ∧
    (∀ c, s.cursor = some c → s.length = none →
      exec (.mrDataNack d) s = .next { u with faults := [.unwrittenRead .length] }) ∧
    (∀ c l, s.cursor = some c → s.length = some l → c.toNat < l.toNat → s.bufferBase = none →
      exec (.mrDataNack d) s = .next { u with faults := [.unwrittenRead .bufferBase] }) ∧
    (∀ c l base, s.cursor = some c → s.length = some l → c.toNat < l.toNat → s.bufferBase = some base →
      s.admitted (base + c) = false → exec (.mrDataNack d) s = .fault (.bufferNotAdmitted (base + c))) ∧
    (∀ c l v, s.cursor = some c → s.length = some l →
      ((∃ base, c.toNat < l.toNat ∧ s.bufferBase = some base ∧ s.admitted (base + c) = true ∧
          v = { u with mem := Memory.write s.mem (base + c).toNat d, cursor := some (c + 1#16) }) ∨
        (l.toNat ≤ c.toNat ∧ v = u)) →
      (s.slots.onComplete = false → exec (.mrDataNack d) s = .next (v.afterTerminal false true)) ∧
      (∀ a t, s.slots.onComplete = true → v.policyCall (.onComplete 0x58#8) = (a, t) →
        exec (.mrDataNack d) s = .next (t.afterTerminal (a.action.getLsbD 2) (a.action.getLsbD 3))))

/-! ## Responder events -/

/-- R190, R200 to R203: an address match for receiving sets the mode and acknowledges as on_address_match says, by default
yes; START and STOP are not honoured. -/
def Obligations.ReceiveAddressMatched : Prop :=
  ∀ (s t : State) (d : Byte) (i : Instr) (code : Byte),
    (i, code) ∈ [(Instr.srSlaAck d, 0x60#8), (Instr.srArbLostSlaAck d, 0x68#8), (Instr.srGcallAck d, 0x70#8),
      (Instr.srArbLostGcallAck d, 0x78#8)] →
    s.deliveryEnabled = true → t = State.afterDataRead { s.afterReport code d with transferMode := .responderReceive } →
    (s.slots.onAddressMatch = false → exec i s = .next (t.afterCommand true false false)) ∧
    (s.slots.onAddressMatch = true →
      exec i s = .next ((t.policyCall (.onAddressMatch (d.extractLsb' 1 7) code)).2.afterCommand
        ((t.policyCall (.onAddressMatch (d.extractLsb' 1 7) code)).1.action.getLsbD 0) false false))

/-- R191, R192, R204 to R207: a received byte is offered to on_byte_received, by default not acknowledged; START is
honoured after a NACKed byte only. -/
def Obligations.ResponderByteReceived : Prop :=
  ∀ (s : State) (d : Byte) (i : Instr) (code : Byte) (hs : Bool),
    (i, code, hs) ∈ [(Instr.srDataAck d, 0x80#8, false), (Instr.srGcallDataAck d, 0x90#8, false),
      (Instr.srDataNack d, 0x88#8, true), (Instr.srGcallDataNack d, 0x98#8, true)] →
    s.deliveryEnabled = true →
    (s.slots.onByteReceived = false →
      exec i s = .next ((s.afterReport code d).afterDataRead.afterCommand false false false)) ∧
    (∀ a t, s.slots.onByteReceived = true →
      (s.afterReport code d).afterDataRead.policyCall (.onByteReceived d code) = (a, t) →
      exec i s = .next (t.afterCommand (a.action.getLsbD 0) (hs && a.action.getLsbD 2) false))

/-- R208: a stop or repeated start while addressed acknowledges the next address as on_stop_received says, by default yes,
and honours START. -/
def Obligations.ResponderStopReceived : Prop :=
  ∀ (s : State) (d : Byte), s.deliveryEnabled = true →
    (s.slots.onStopReceived = false →
      exec (.srStop d) s = .next ((s.afterReport 0xA0#8 d).afterCommand true false false)) ∧
    (∀ a t, s.slots.onStopReceived = true → (s.afterReport 0xA0#8 d).policyCall .onStopReceived = (a, t) →
      exec (.srStop d) s = .next (t.afterCommand (a.action.getLsbD 0) (a.action.getLsbD 2) false))

/-- R193, R209, R210: an address match for transmitting sets the mode and ignores on_address_match's answer; it requests the
first byte and sends it with the answered acknowledge bit, or faults where on_byte_requested is absent. Under
ST_ADDR_LOADS_FIRST_BYTE = false the row only continues. -/
def Obligations.TransmitAddressMatched : Prop :=
  ∀ (s t u : State) (d : Byte) (i : Instr) (code : Byte),
    (i, code) ∈ [(Instr.stSlaAck d, 0xA8#8), (Instr.stArbLostSlaAck d, 0xB0#8)] →
    s.deliveryEnabled = true → t = State.afterDataRead { s.afterReport code d with transferMode := .responderTransmit } →
    u = (if s.slots.onAddressMatch then (t.policyCall (.onAddressMatch (d.extractLsb' 1 7) code)).2 else t) →
    (∀ a v, s.slots.onByteRequested = true → u.policyCall .onByteRequested = (a, v) →
      exec i s = .next (v.afterByteCommand (a.action.getLsbD 0) false false a.out)) ∧
    (s.slots.onByteRequested = false → exec i s = .next { u with faults := [.missingByteRequested] }) ∧
    respAddrTx false code (s.afterReport code d) = .next (u.afterCommand true false false)

/-- R194, R211: a byte request sends out_byte with the answered acknowledge bit; with no on_byte_requested it records
MissingByteRequested: no command, irq_flag stays 1. -/
def Obligations.ByteRequestedSends : Prop :=
  ∀ (s : State) (d : Byte), s.deliveryEnabled = true →
    (∀ a t, s.slots.onByteRequested = true → (s.afterReport 0xB8#8 d).policyCall .onByteRequested = (a, t) →
      exec (.stDataAck d) s = .next (t.afterByteCommand (a.action.getLsbD 0) false false a.out)) ∧
    (s.slots.onByteRequested = false →
      exec (.stDataAck d) s = .next { s.afterReport 0xB8#8 d with faults := [.missingByteRequested] })

/-- R195, R212, R213: after the last byte the acknowledge is re-armed as on_last_byte says, by default yes; START is
honoured. -/
def Obligations.LastByteRearms : Prop :=
  ∀ (s : State) (d : Byte) (i : Instr) (code : Byte),
    (i, code) ∈ [(Instr.stDataNack d, 0xC0#8), (Instr.stLastData d, 0xC8#8)] →
    s.deliveryEnabled = true →
    (s.slots.onLastByte = false → exec i s = .next ((s.afterReport code d).afterCommand true false false)) ∧
    (∀ a t, s.slots.onLastByte = true → (s.afterReport code d).policyCall (.onLastByte code) = (a, t) →
      exec i s = .next (t.afterCommand (a.action.getLsbD 0) (a.action.getLsbD 2) false))

/-- R214: a bus error issues a stop and goes Idle without a wait. -/
def Obligations.BusErrorStops : Prop :=
  ∀ (s : State) (d : Byte), s.deliveryEnabled = true →
    exec (.busError d) s = .next { (s.afterReport 0x00#8 d).afterCommand true false true with roleState := .idle }

/-! ## The action codes -/

/-- R145: with every callback absent, the command each row writes: STOP after a NACK and at completion, a release after
arbitration loss, no acknowledge after a received byte, an acknowledge otherwise; a byte request faults. -/
def Obligations.DefaultCommands : Prop :=
  ∀ (s : State) (d : Byte), s.deliveryEnabled = true → s.slots = SlotBits.absent →
    (∀ i v, (i, v) ∈ [(Instr.mtSlaNack d, 0xD5#8), (Instr.mtDataNack d, 0xD5#8), (Instr.mrSlaNack d, 0xD5#8),
        (Instr.arbLost d, 0xC5#8), (Instr.srSlaAck d, 0xC5#8), (Instr.srArbLostSlaAck d, 0xC5#8), (Instr.srGcallAck d, 0xC5#8),
        (Instr.srArbLostGcallAck d, 0xC5#8), (Instr.srDataAck d, 0x85#8), (Instr.srDataNack d, 0x85#8),
        (Instr.srGcallDataAck d, 0x85#8), (Instr.srGcallDataNack d, 0x85#8), (Instr.srStop d, 0xC5#8),
        (Instr.stDataNack d, 0xC5#8), (Instr.stLastData d, 0xC5#8)] →
      ∃ t, exec i s = .next t ∧ t.portLog.getLast? = some (.write .ctrl v) ∧ t.calls = s.calls) ∧
    (∀ i c l, i ∈ [Instr.mtSlaAck d, Instr.mtDataAck d, Instr.mrDataNack d] → s.cursor = some c → s.length = some l →
      l.toNat ≤ c.toNat →
      ∃ t, exec i s = .next t ∧ t.portLog.getLast? = some (.write .ctrl 0xD5#8) ∧ t.calls = s.calls) ∧
    (∀ i ∈ [Instr.stSlaAck d, Instr.stArbLostSlaAck d, Instr.stDataAck d],
      ∃ t, exec i s = .next t ∧ t.faults = [.missingByteRequested])

/-- R88: an action code's bits 1 and 7 to 5 are never read: two answers that differ in them alone leave the same state,
but for an answer not yet taken. -/
def Obligations.ActionBitsUnread : Prop :=
  ∀ (s t : State) (i : Instr) (a b : Answer) (rest : List Answer), i.port = .event →
    a.slot = b.slot → a.out = b.out → a.action &&& 0x1D#8 = b.action &&& 0x1D#8 →
    exec i { s with answers := a :: rest } = .next t →
    ∃ left, exec i { s with answers := b :: rest } = .next { t with answers := left } ∧
      (t.answers = left ∨ ∃ more, t.answers = a :: more ∧ left = b :: more)

/-! ## Host operations -/

/-- R120, R121: the two controller initialisations set the controller slots, the timing and the budget, arm the peripheral,
go Idle and return Ok, from any role_state.
What `op` latches beside its selector is the model's (DESIGN CHOICE, log entry 11). -/
def Obligations.InitialisesController : Prop :=
  ∀ (s : State) (fd : BitVec 32) (baud : Byte) (presc : BitVec 2) (timeout : Half) (hc hn : Bool) (i : Instr) (sel : BitVec 4),
    (i, sel, baud, presc) ∈ [(Instr.initController fd timeout hc hn, 1#4, (Config.timingFn fd).1, (Config.timingFn fd).2),
      (Instr.initControllerRaw baud presc timeout hc hn, 2#4, baud, presc)] →
    s.phase = .ready → s.faults = [] →
    exec i s = .next (({ s with
      op := some ⟨sel, false, 0#7, 0#16, 0#16, false, false⟩
      slots := { s.slots with onComplete := hc, onNackOrArbitrationLoss := hn }
      baud := baud
      sr := (s.sr &&& 0xFC#8) ||| presc.setWidth 8
      timeoutBudget := some timeout
      roleState := .idle
      portLog := s.portLog ++ [.write .baud baud, .write .sr (presc.setWidth 8)] } : State).afterArm.afterReturn 0x01#8)

/-- R122: configure_responder overwrites the five responder slots, writes ADDR and AMASK, arms the peripheral and returns
Ok; role_state is not written.
What `op` latches beside its selector, its address among it, is the model's (DESIGN CHOICE, log entry 11). -/
def Obligations.ConfiguresResponder : Prop :=
  ∀ (s : State) (a m : BitVec 7) (gc h2 h3 h4 h5 h6 : Bool), s.phase = .ready → s.faults = [] →
    exec (.configureResponder a gc m h2 h3 h4 h5 h6) s = .next (({ s with
      op := some ⟨3#4, false, a, 0#16, 0#16, false, false⟩
      slots := ⟨s.slots.onComplete, s.slots.onNackOrArbitrationLoss, h2, h3, h4, h5, h6⟩
      addr := (a.setWidth 8 <<< 1) ||| (if gc then 1#8 else 0#8)
      amask := m.setWidth 8 <<< 1
      portLog := s.portLog ++ [.write .addr ((a.setWidth 8 <<< 1) ||| (if gc then 1#8 else 0#8)),
        .write .amask (m.setWidth 8 <<< 1)] } : State).afterArm.afterReturn 0x01#8)

/-- R123, R124: reset disables, re-arms, goes Idle and returns Ok; every other field keeps its value. What `op` latches beside
its selector is the model's (DESIGN CHOICE, log entry 11). -/
def Obligations.ResetRearms : Prop :=
  ∀ (s : State), s.phase = .ready → s.faults = [] →
    exec .reset s = .next ({ s with op := some ⟨4#4, false, 0#7, 0#16, 0#16, false, false⟩ }.afterReset.afterReturn 0x01#8)

/-- R125: shut_down turns the pull-ups off, clears the control register, goes Uninitialized and returns Ok. What `op`
latches beside its selector is the model's (DESIGN CHOICE, log entry 11). -/
def Obligations.ShutsDown : Prop :=
  ∀ (s : State), s.phase = .ready → s.faults = [] →
    exec .shutDown s = .next (({ s with
      op := some ⟨5#4, false, 0#7, 0#16, 0#16, false, false⟩
      pullupEn := false
      roleState := .uninitialized } : State).afterDisable.afterReturn 0x01#8)

/-- R126: a second shut_down leaves the same state (only the records of results and port accesses grow). -/
def Obligations.ShutDownIdempotent : Prop :=
  ∀ (s t : State), s.phase = .ready → exec .shutDown s = .next t →
    ∃ u, exec .shutDown t = .next u ∧ u.roleState = .uninitialized ∧
      { u with results := t.results, portLog := t.portLog } = t

/-- R260: stop sets Stopping, issues the stop command and begins the stop wait, from any role_state. What `op` latches beside
its selector is the model's (DESIGN CHOICE, log entry 11). -/
def Obligations.StopIssues : Prop :=
  ∀ (s : State), s.phase = .ready → s.faults = [] →
    exec .stop s = .next { ({ s with op := some ⟨6#4, false, 0#7, 0#16, 0#16, false, false⟩ }.afterCommand true false true) with
      roleState := .stopping, waitK := 0#16, phase := .waitStop }

/-- R233, R240, R241: transmit and receive latch their record and begin the first wait; from Uninitialized they return
NotInitialized with no other write. -/
def Obligations.TransferAccepted : Prop :=
  ∀ (s : State) (a : BitVec 7) (buf len : Half) (ns po : Bool) (i : Instr) (o : Op),
    (i, o) ∈ [(Instr.transmit a buf len ns po, (⟨7#4, false, a, buf, len, ns, po⟩ : Op)),
      (Instr.receive a buf len ns, (⟨8#4, true, a, buf, len, ns, false⟩ : Op))] →
    s.phase = .ready → s.faults = [] → buf.toNat + len.toNat ≤ 2 ^ 16 →
    (s.roleState ≠ .uninitialized → exec i s = .next { s with op := some o, waitK := 0#16, phase := .waitQ1 }) ∧
    (s.roleState = .uninitialized → exec i s = .next ({ s with op := some o }.afterReturn 0x02#8))

/-- R96, R285: a record the host interface refuses sets the refusal mark with its name and is not accepted. The byte
layout of the record is the model's (log entry 8). -/
def Obligations.RecordsRefused : Prop :=
  ∀ (s : State) (rest : List Move) (record : List Byte), s.script = .host record :: rest → s.phase = .ready →
    (∀ sel tail, record = sel :: tail → (sel.toNat % 16 = 0 ∨ 8 < sel.toNat % 16) →
      step s = .next ({ s with script := rest }.afterRefusal .selector)) ∧
    (∀ sel a b0 b1 l0 l1 l2 fl tail, record = sel :: a :: b0 :: b1 :: l0 :: l1 :: l2 :: fl :: tail →
      (sel.toNat % 16 = 7 ∨ sel.toNat % 16 = 8) →
      (0x7F < a.toNat → step s = .next ({ s with script := rest }.afterRefusal .address)) ∧
      (a.toNat ≤ 0x7F →
        (0xFFFF < l0.toNat + 256 * l1.toNat + 65536 * l2.toNat ∨
          2 ^ 16 < (b0.toNat + 256 * b1.toNat) + (l0.toNat + 256 * l1.toNat + 65536 * l2.toNat)) →
        step s = .next ({ s with script := rest }.afterRefusal .region))) ∧
    (∀ sel a g m h tail, record = sel :: a :: g :: m :: h :: tail → sel.toNat % 16 = 3 → (0x7F < a.toNat ∨ 0x7F < m.toNat) →
      step s = .next ({ s with script := rest }.afterRefusal .address)) ∧
    (∀ sel b0 b1 p t0 t1 fl tail, record = sel :: b0 :: b1 :: p :: t0 :: t1 :: fl :: tail → sel.toNat % 16 = 2 →
      (0xFF < b0.toNat + 256 * b1.toNat ∨ 3 < p.toNat) →
      step s = .next ({ s with script := rest }.afterRefusal .timing))

/-! ## The Orchestrator -/

/-- R234, R235, R236, R238: the first wait's success arms the transfer. In Idle it issues the start unless no_start, goes
Busy, and waits for completion or, for a posted transmit, returns NoWait; in RepeatedStartPending it begins the
repeated-start wait, with no command and no_start unread. -/
def Obligations.FirstWaitSucceeds : Prop :=
  ∀ (s t : State) (o : Op), s.phase = .waitQ1 → s.faults = [] → s.op = some o →
    t = { s with
      transferMode := if o.dir then .controllerReceive else .controllerTransmit
      targetAddress := some ((o.address.setWidth 8 <<< 1) ||| (if o.dir then 1#8 else 0#8))
      bufferBase := some o.buf
      length := some o.len
      cursor := some 0#16 } →
    (s.roleState = .idle → ∀ u, u = { (if o.noStart then t else t.afterCommand true true false) with roleState := .busy } →
      (o.selector = 7#4 ∧ o.posted = true → check s = .next (u.afterReturn 0x04#8)) ∧
      (¬(o.selector = 7#4 ∧ o.posted = true) → check s = .next { u with waitK := 0#16, phase := .waitDone })) ∧
    (s.roleState = .repeatedStartPending → check s = .next { t with waitK := 0#16, phase := .waitRS })

/-- R237, R238: once START or REP_START is reported the address is re-issued and the role is Busy, and a posted transmit
then returns NoWait; a wait that spends its budget first forces a reset and returns TimedOut. -/
def Obligations.RepeatedStartWaitEnds : Prop :=
  ∀ (s : State), s.phase = .waitRS → s.faults = [] →
    (∀ u a o, s.targetAddress = some a → s.op = some o → (s.lastEvent = some 0x08#8 ∨ s.lastEvent = some 0x10#8) →
      u = { s.afterByteCommand true false false a with roleState := .busy } →
      (o.selector = 7#4 ∧ o.posted = true → check s = .next (u.afterReturn 0x04#8)) ∧
      (¬(o.selector = 7#4 ∧ o.posted = true) → check s = .next { u with waitK := 0#16, phase := .waitDone })) ∧
    (∀ e, s.lastEvent = some e → e ≠ 0x08#8 → e ≠ 0x10#8 → s.timeoutBudget = some s.waitK →
      check s = .next (s.afterReset.afterReturn 0x03#8))

/-- R239: a transfer whose state is quiescent returns last_event, whatever wait_k is; one that spends its budget first
returns TimedOut with no recovery and no other write than phase. -/
def Obligations.CompletionWaitEnds : Prop :=
  ∀ (s : State), s.phase = .waitDone → s.faults = [] →
    (∀ ev, s.lastEvent = some ev → (s.roleState = .idle ∨ s.roleState = .repeatedStartPending) →
      check s = .next (s.afterReturn ev)) ∧
    (s.roleState ≠ .idle → s.roleState ≠ .repeatedStartPending → s.timeoutBudget = some s.waitK →
      check s = .next (s.afterReturn 0x03#8))

/-- R261, R262: once stop_pending is 0 the stop goes Idle and returns Ok, the budget unread; one that spends its budget
first forces a reset and returns TimedOut. -/
def Obligations.StopWaitEnds : Prop :=
  ∀ (s : State), s.phase = .waitStop → s.faults = [] →
    (s.stopPending = false → check s = .next ({ s with roleState := .idle }.afterReturn 0x01#8)) ∧
    (s.stopPending = true → s.timeoutBudget = some s.waitK → check s = .next (s.afterReset.afterReturn 0x03#8))

/-- R231, R232: a failed check with wait_k below or above the budget counts one delay; at the budget it times out, with a
forced reset in the repeated-start and stop waits and with no recovery in the other two; an unwritten budget faults. -/
def Obligations.FailedCheckCounts : Prop :=
  ∀ (s : State), s.faults = [] →
    ((s.phase = .waitQ1 ∧ s.quiescent = false) ∨ (s.phase = .waitDone ∧ s.quiescent = false) ∨
      (s.phase = .waitRS ∧ ∃ e, s.lastEvent = some e ∧ e ≠ 0x08#8 ∧ e ≠ 0x10#8) ∨
      (s.phase = .waitStop ∧ s.stopPending = true)) →
    (∀ t, s.timeoutBudget = some t → s.waitK ≠ t → check s = .next { s with waitK := s.waitK + 1#16 }) ∧
    (s.timeoutBudget = some s.waitK →
      ((s.phase = .waitQ1 ∨ s.phase = .waitDone) → check s = .next (s.afterReturn 0x03#8)) ∧
      ((s.phase = .waitRS ∨ s.phase = .waitStop) → check s = .next (s.afterReset.afterReturn 0x03#8))) ∧
    (s.timeoutBudget = none → check s = .next { s with faults := [.unwrittenRead .timeoutBudget] })

/-- R231: with no move of the environment a wait whose condition does not hold makes the checks wait_k to T, counting T -
wait_k delays, and then returns TimedOut: T + 1 checks in all from wait_k = 0. That a step with no move left is a check is the
model's (log entry 1). -/
def Obligations.WaitTimesOut : Prop :=
  ∀ (s : State) (t : Half), s.script = [] → s.faults = [] → s.timeoutBudget = some t → s.waitK.toNat ≤ t.toNat →
    ((s.phase = .waitQ1 ∧ s.quiescent = false) ∨ (s.phase = .waitDone ∧ s.quiescent = false) ∨
      (s.phase = .waitRS ∧ ∃ e, s.lastEvent = some e ∧ e ≠ 0x08#8 ∧ e ≠ 0x10#8) ∨
      (s.phase = .waitStop ∧ s.stopPending = true)) →
    (∀ n, n ≤ t.toNat - s.waitK.toNat → core.run n s = .next { s with waitK := s.waitK + BitVec.ofNat 16 n }) ∧
    core.run (t.toNat - s.waitK.toNat + 1) s = .next
      (State.afterReturn (if s.phase = Phase.waitRS ∨ s.phase = Phase.waitStop then State.afterReset { s with waitK := t } else { s with waitK := t }) 0x03#8)

/-! ## Invariants and whole-machine rules -/

/-- Every step keeps the invariant: canonical memory, cursor at most length, wait_k at most the budget while waiting,
Stopping only in the stop wait, no region that wraps, a latched transfer in a transfer's wait, fields armed together,
last_event the status field, the pending flag held by START reports alone, at most one fault. -/
def Obligations.StepKeepsInv : Prop :=
  ∀ (s t : State), s.Inv → step s = .next t → t.Inv

/-- The invariant holds at power-on. -/
def Obligations.ResetInv : Prop := State.reset.Inv

/-- R310: the power-on values the spec gives; no event can be delivered then. -/
def Obligations.PowerOnValues : Prop :=
  State.reset.roleState = .uninitialized ∧ State.reset.transferMode = .none ∧
  (∀ k, State.reset.slots.get k = false) ∧
  State.reset.bufferBase = none ∧ State.reset.length = none ∧ State.reset.cursor = none ∧ State.reset.lastEvent = none ∧
  State.reset.targetAddress = none ∧ State.reset.timeoutBudget = none ∧ State.reset.op = none ∧
  State.reset.phase = .ready ∧ State.reset.waitK = 0#16 ∧
  State.reset.ctrlEn = false ∧ State.reset.ctrlIe = false ∧ State.reset.ctrlEa = false ∧ State.reset.ctrlSta = false ∧
  State.reset.irqFlag = false ∧ State.reset.stopPending = false ∧ State.reset.faults = [] ∧ State.reset.refused = [] ∧
  State.reset.deliveryEnabled = false

/-- R144, R44, R286: a dispatch that answers a next state writes CTRL at most once. A START row in RepeatedStartPending writes
it not at all, leaves irq_flag 1 and records no fault. Any other row writes it exactly once and clears irq_flag, or it writes
it not at all, leaves irq_flag 1 and records one fault: on_byte_requested is missing where a byte is requested, or a transfer
field read is unwritten. A reserved code writes nothing and records its own. -/
def Obligations.OneCommandPerDispatch : Prop :=
  (∀ (s t : State) (i : Instr), i.port = .event → exec i s = .next t →
    ∃ ops, t.portLog = s.portLog ++ ops ∧
      ((s.roleState = .repeatedStartPending ∧ ∃ d, i = .start d ∨ i = .repStart d) →
        ops.countP PortOp.isCtrlWrite = 0 ∧ t.irqFlag = true ∧ t.faults = []) ∧
      (¬(s.roleState = .repeatedStartPending ∧ ∃ d, i = .start d ∨ i = .repStart d) →
        (ops.countP PortOp.isCtrlWrite = 1 ∧ t.irqFlag = false ∧ t.faults = []) ∨
        (ops.countP PortOp.isCtrlWrite = 0 ∧ t.irqFlag = true ∧
          ((t.faults = [.missingByteRequested] ∧ s.slots.onByteRequested = false ∧
              ∃ d, i = .stSlaAck d ∨ i = .stArbLostSlaAck d ∨ i = .stDataAck d) ∨
            (t.faults = [.unwrittenRead .targetAddress] ∧ s.targetAddress = none) ∨
            (t.faults = [.unwrittenRead .cursor] ∧ s.cursor = none) ∨
            (t.faults = [.unwrittenRead .length] ∧ s.length = none) ∨
            (t.faults = [.unwrittenRead .bufferBase] ∧ s.bufferBase = none))))) ∧
  (∀ (s t : State) (sr data : Byte), deliverReserved sr data s = .next t →
    t.portLog = s.portLog ++ [.read .sr] ∧ t.irqFlag = true ∧ t.faults = [.unrecognisedEvent (sr &&& 0xF8#8)])

/-- R141, R290, R314 to R316: in a dispatch the status is read first and only once, DATA is read before it is written, and
the CTRL write, if any, is the last access. -/
def Obligations.DispatchAccessOrder : Prop :=
  ∀ (s t : State) (i : Instr), i.port = .event → exec i s = .next t →
    ∃ rd wr cm, t.portLog = s.portLog ++ [.read .sr] ++ rd ++ wr ++ cm ∧
      (rd = [] ∨ rd = [.read .data]) ∧ (wr = [] ∨ wr = [.write .data t.data]) ∧ (cm = [] ∨ ∃ v, cm = [.write .ctrl v])

/-- R36: the pending flag is 0 at power-on; a CTRL write with INTERRUPT_FLAG 1 or ENABLE 0 clears it; a step sets it only by
a delivery and clears it only by such a CTRL write; while it is 1 no event runs. -/
def Obligations.PendingFlagChanges : Prop :=
  State.reset.irqFlag = false ∧
  (∀ (s : State) (v : Byte), (v.getLsbD 7 = true ∨ v.getLsbD 2 = false) → (s.writeCtrl v).irqFlag = false) ∧
  (∀ (s t : State), step s = .next t →
    (s.irqFlag = false → t.irqFlag = true → ∃ bytes rest, s.script = .event bytes :: rest) ∧
    (s.irqFlag = true → t.irqFlag = false →
      ∃ ops v, t.portLog = s.portLog ++ ops ∧ .write .ctrl v ∈ ops ∧ (v.getLsbD 7 = true ∨ v.getLsbD 2 = false))) ∧
  (∀ (s t : State) (i : Instr), s.irqFlag = true → i.port = .event → exec i s ≠ .next t)

/-- R37: the stop-pending flag is 0 at power-on; a step sets it only by a CTRL write with STOP 1 and clears it only by the
peripheral's move or a CTRL write with ENABLE 0. -/
def Obligations.StopPendingChanges : Prop :=
  State.reset.stopPending = false ∧
  (∀ (s t : State), step s = .next t →
    (s.stopPending = false → t.stopPending = true →
      ∃ ops v, t.portLog = s.portLog ++ ops ∧ .write .ctrl v ∈ ops ∧ v.getLsbD 4 = true) ∧
    (s.stopPending = true → t.stopPending = false →
      (∃ rest, s.script = .stopDone :: rest) ∨
      ∃ ops v, t.portLog = s.portLog ++ ops ∧ .write .ctrl v ∈ ops ∧ v.getLsbD 2 = false))

/-- R43, R285, R326: a fault recorded stays recorded and the refusal mark is never cleared, so that no run from a faulted or
refused state is ever FINISHED; both are empty at power-on. -/
def Obligations.MarksNeverCleared : Prop :=
  State.reset.faults = [] ∧ State.reset.refused = [] ∧
  (∀ (s t : State), step s = .next t → (∀ f ∈ s.faults, f ∈ t.faults) ∧ (∀ n ∈ s.refused, n ∈ t.refused)) ∧
  ∀ (n : Nat) (s t : State), (s.faults ≠ [] ∨ s.refused ≠ []) → core.run n s = .next t → ¬t.Finished

/-- R12, R94: a step returns at most one result, and then phase is Ready; the result is a driver status 1 to 4 or the bus
condition code in last_event, whose low bits are 0. -/
def Obligations.ReturnsOneResult : Prop :=
  ∀ (s t : State), s.Inv → step s = .next t →
    t.results = s.results ∨
    (t.phase = .ready ∧ ∃ v, t.results = s.results ++ [v] ∧
      (v ∈ [0x01#8, 0x02#8, 0x03#8, 0x04#8] ∨ (s.lastEvent = some v ∧ v &&& 0x07#8 = 0#8)))

/-- R33: wait_k changes only to 0, by a step that begins a wait, or by one, by a check that stays in its wait. -/
def Obligations.WaitCounterChanges : Prop :=
  ∀ (s t : State), step s = .next t → t.waitK ≠ s.waitK →
    (t.waitK = 0#16 ∧ t.phase ≠ .ready ∧ t.phase ≠ s.phase) ∨
    (t = { s with script := t.script, waitK := s.waitK + 1#16 } ∧ s.phase ≠ .ready)

/-- R29: no rule reads transfer_mode: two states that differ in it alone step to states that differ in it alone. -/
def Obligations.TransferModeUnread : Prop :=
  ∀ (s t : State) (m : TransferMode), step s = .next t →
    ∃ m', step { s with transferMode := m } = .next { t with transferMode := m' }

/-- R30, R40, R41, R26, R32 to R34, R47: an event changes none of: the slots, the budget, BAUD, ADDR, AMASK, the prescaler,
the pull-up enable, phase, wait_k, op, buffer_base, length, target_address, the results, the refusal mark, the allocation. -/
def Obligations.EventFrame : Prop :=
  ∀ (s t : State) (i : Instr), i.port = .event → exec i s = .next t →
    t.slots = s.slots ∧ t.timeoutBudget = s.timeoutBudget ∧ t.baud = s.baud ∧ t.addr = s.addr ∧ t.amask = s.amask ∧
    t.sr &&& 0x07#8 = s.sr &&& 0x07#8 ∧ t.pullupEn = s.pullupEn ∧ t.phase = s.phase ∧ t.waitK = s.waitK ∧ t.op = s.op ∧
    t.bufferBase = s.bufferBase ∧ t.length = s.length ∧ t.targetAddress = s.targetAddress ∧ t.results = s.results ∧
    t.refused = s.refused ∧ t.alloc = s.alloc ∧ t.script = s.script

/-- R196: the responder events (codes 0x60 to 0xC8) leave role_state, cursor, length, buffer_base, target_address and every
byte of buffer memory; only the address-match rows write transfer_mode. -/
def Obligations.ResponderFrame : Prop :=
  ∀ (s t : State) (i : Instr) (code d : Byte), encode i = [code, d] → i.port = .event → 0x60 ≤ code.toNat →
    exec i s = .next t →
    t.roleState = s.roleState ∧ t.cursor = s.cursor ∧ t.length = s.length ∧ t.bufferBase = s.bufferBase ∧
    t.targetAddress = s.targetAddress ∧ t.mem = s.mem ∧
    (code ∉ [0x60#8, 0x68#8, 0x70#8, 0x78#8, 0xA8#8, 0xB0#8] → t.transferMode = s.transferMode)

/-- R28, R47 (b): which steps enter each role. Busy: a check, in the first wait from Idle or in the repeated-start wait.
Stopping: a stop. Uninitialized: a shut_down. RepeatedStartPending: an event of the completion sequence, the NACK path or
arbitration loss. Idle: one of these events or a bus error, a controller initialisation, a reset, or a check that ends the
repeated-start wait by the forced reset or the stop wait by success or the forced reset. -/
def Obligations.RoleEntered : Prop :=
  ∀ (s t : State), step s = .next t → t.roleState ≠ s.roleState →
    (t.roleState = .busy →
      ((s.phase = .waitQ1 ∧ s.roleState = .idle) ∨ s.phase = .waitRS) ∧ check { s with script := t.script } = .next t) ∧
    (t.roleState = .stopping → ∃ bytes tail rest, s.script = .host bytes :: rest ∧ decode .host bytes = .instr .stop tail) ∧
    (t.roleState = .uninitialized →
      ∃ bytes tail rest, s.script = .host bytes :: rest ∧ decode .host bytes = .instr .shutDown tail) ∧
    (t.roleState = .repeatedStartPending →
      ∃ bytes i tail rest code d, s.script = .event bytes :: rest ∧ decode .event bytes = .instr i tail ∧ encode i = [code, d] ∧
        code ∈ [0x18#8, 0x20#8, 0x28#8, 0x30#8, 0x38#8, 0x48#8, 0x58#8]) ∧
    (t.roleState = .idle →
      (∃ bytes i tail rest code d, s.script = .event bytes :: rest ∧ decode .event bytes = .instr i tail ∧ encode i = [code, d] ∧
        code ∈ [0x00#8, 0x18#8, 0x20#8, 0x28#8, 0x30#8, 0x38#8, 0x48#8, 0x58#8]) ∨
      (∃ bytes i tail rest, s.script = .host bytes :: rest ∧ decode .host bytes = .instr i tail ∧
        (i = .reset ∨ (∃ fd tm hc hn, i = .initController fd tm hc hn) ∨ ∃ b p tm hc hn, i = .initControllerRaw b p tm hc hn)) ∨
      (check { s with script := t.script } = .next t ∧ t.phase = .ready ∧
        ((s.phase = .waitRS ∧ t.results = s.results ++ [0x03#8]) ∨
          (s.phase = .waitStop ∧ (t.results = s.results ++ [0x01#8] ∨ t.results = s.results ++ [0x03#8])))))

/-- R47 (c): buffer_base, length and target_address are changed only by a step taken while the state is quiescent and the
first wait runs. -/
def Obligations.TransferFieldsWrittenQuiescent : Prop :=
  ∀ (s t : State), step s = .next t →
    (t.bufferBase ≠ s.bufferBase ∨ t.length ≠ s.length ∨ t.targetAddress ≠ s.targetAddress) →
    s.quiescent = true ∧ s.phase = .waitQ1

/-- R26, R30, R40, R41, R42: the controller slots, the budget, BAUD and the prescaler change only by a controller
initialisation, the responder slots, ADDR and AMASK only by configure_responder, the pull-up enable only by shut_down. -/
def Obligations.ConfigurationWriters : Prop :=
  ∀ (s t : State) (i : Instr), exec i s = .next t →
    ((t.timeoutBudget ≠ s.timeoutBudget ∨ t.baud ≠ s.baud ∨ t.sr &&& 0x03#8 ≠ s.sr &&& 0x03#8 ∨
        t.slots.onComplete ≠ s.slots.onComplete ∨ t.slots.onNackOrArbitrationLoss ≠ s.slots.onNackOrArbitrationLoss) →
      (∃ fd tm hc hn, i = .initController fd tm hc hn) ∨ (∃ b p tm hc hn, i = .initControllerRaw b p tm hc hn)) ∧
    ((t.addr ≠ s.addr ∨ t.amask ≠ s.amask ∨ t.slots.onAddressMatch ≠ s.slots.onAddressMatch ∨
        t.slots.onByteReceived ≠ s.slots.onByteReceived ∨ t.slots.onStopReceived ≠ s.slots.onStopReceived ∨
        t.slots.onByteRequested ≠ s.slots.onByteRequested ∨ t.slots.onLastByte ≠ s.slots.onLastByte) →
      ∃ a g m h2 h3 h4 h5 h6, i = .configureResponder a g m h2 h3 h4 h5 h6) ∧
    (t.pullupEn ≠ s.pullupEn → i = .shutDown)

/-- R60, R179, R180: no instruction changes a byte of buffer memory except the two receive rows, which with a slot left
write DATA's byte at buffer_base + cursor and no other. -/
def Obligations.MemoryFrame : Prop :=
  ∀ (s t : State) (i : Instr), Memory.wf s.mem = true → exec i s = .next t →
    ((∀ d, i ≠ .mrDataAck d ∧ i ≠ .mrDataNack d) → t.mem = s.mem) ∧
    (∀ d, i = .mrDataAck d ∨ i = .mrDataNack d →
      (∀ base c l, s.bufferBase = some base → s.cursor = some c → s.length = some l → c.toNat < l.toNat →
        Memory.read t.mem (base + c).toNat = d ∧
        ∀ a, a ≠ (base + c).toNat → Memory.read t.mem a = Memory.read s.mem a) ∧
      (∀ c l, s.cursor = some c → s.length = some l → l.toNat ≤ c.toNat → t.mem = s.mem) ∧
      ((s.cursor = none ∨ s.length = none ∨ s.bufferBase = none) → t.mem = s.mem))
end

