-- ==== Sys2Proof/Laws/State.lean ====
section
/-! SUPPORT. One lemma per field per update of State, true by rfl: no later proof unfolds a record update. -/

namespace Sys2Proof.Machine

@[simp] theorem State.readPort_bufferBase (s : State) (r : PeriphReg) : (s.readPort r).bufferBase = s.bufferBase := rfl
@[simp] theorem State.readPort_length (s : State) (r : PeriphReg) : (s.readPort r).length = s.length := rfl
@[simp] theorem State.readPort_cursor (s : State) (r : PeriphReg) : (s.readPort r).cursor = s.cursor := rfl
@[simp] theorem State.readPort_lastEvent (s : State) (r : PeriphReg) : (s.readPort r).lastEvent = s.lastEvent := rfl
@[simp] theorem State.readPort_targetAddress (s : State) (r : PeriphReg) : (s.readPort r).targetAddress = s.targetAddress := rfl
@[simp] theorem State.readPort_timeoutBudget (s : State) (r : PeriphReg) : (s.readPort r).timeoutBudget = s.timeoutBudget := rfl
@[simp] theorem State.readPort_roleState (s : State) (r : PeriphReg) : (s.readPort r).roleState = s.roleState := rfl
@[simp] theorem State.readPort_transferMode (s : State) (r : PeriphReg) : (s.readPort r).transferMode = s.transferMode := rfl
@[simp] theorem State.readPort_slots (s : State) (r : PeriphReg) : (s.readPort r).slots = s.slots := rfl
@[simp] theorem State.readPort_phase (s : State) (r : PeriphReg) : (s.readPort r).phase = s.phase := rfl
@[simp] theorem State.readPort_waitK (s : State) (r : PeriphReg) : (s.readPort r).waitK = s.waitK := rfl
@[simp] theorem State.readPort_op (s : State) (r : PeriphReg) : (s.readPort r).op = s.op := rfl
@[simp] theorem State.readPort_ctrlEn (s : State) (r : PeriphReg) : (s.readPort r).ctrlEn = s.ctrlEn := rfl
@[simp] theorem State.readPort_ctrlIe (s : State) (r : PeriphReg) : (s.readPort r).ctrlIe = s.ctrlIe := rfl
@[simp] theorem State.readPort_ctrlEa (s : State) (r : PeriphReg) : (s.readPort r).ctrlEa = s.ctrlEa := rfl
@[simp] theorem State.readPort_ctrlSta (s : State) (r : PeriphReg) : (s.readPort r).ctrlSta = s.ctrlSta := rfl
@[simp] theorem State.readPort_irqFlag (s : State) (r : PeriphReg) : (s.readPort r).irqFlag = s.irqFlag := rfl
@[simp] theorem State.readPort_stopPending (s : State) (r : PeriphReg) : (s.readPort r).stopPending = s.stopPending := rfl
@[simp] theorem State.readPort_data (s : State) (r : PeriphReg) : (s.readPort r).data = s.data := rfl
@[simp] theorem State.readPort_sr (s : State) (r : PeriphReg) : (s.readPort r).sr = s.sr := rfl
@[simp] theorem State.readPort_baud (s : State) (r : PeriphReg) : (s.readPort r).baud = s.baud := rfl
@[simp] theorem State.readPort_addr (s : State) (r : PeriphReg) : (s.readPort r).addr = s.addr := rfl
@[simp] theorem State.readPort_amask (s : State) (r : PeriphReg) : (s.readPort r).amask = s.amask := rfl
@[simp] theorem State.readPort_pullupEn (s : State) (r : PeriphReg) : (s.readPort r).pullupEn = s.pullupEn := rfl
@[simp] theorem State.readPort_mem (s : State) (r : PeriphReg) : (s.readPort r).mem = s.mem := rfl
@[simp] theorem State.readPort_alloc (s : State) (r : PeriphReg) : (s.readPort r).alloc = s.alloc := rfl
@[simp] theorem State.readPort_faults (s : State) (r : PeriphReg) : (s.readPort r).faults = s.faults := rfl
@[simp] theorem State.readPort_refused (s : State) (r : PeriphReg) : (s.readPort r).refused = s.refused := rfl
@[simp] theorem State.readPort_script (s : State) (r : PeriphReg) : (s.readPort r).script = s.script := rfl
@[simp] theorem State.readPort_answers (s : State) (r : PeriphReg) : (s.readPort r).answers = s.answers := rfl
@[simp] theorem State.readPort_freeCount (s : State) (r : PeriphReg) : (s.readPort r).freeCount = s.freeCount := rfl
@[simp] theorem State.readPort_results (s : State) (r : PeriphReg) : (s.readPort r).results = s.results := rfl
@[simp] theorem State.readPort_calls (s : State) (r : PeriphReg) : (s.readPort r).calls = s.calls := rfl
@[simp] theorem State.readPort_portLog (s : State) (r : PeriphReg) : (s.readPort r).portLog = (s.portLog ++ [.read r]) := rfl

@[simp] theorem State.writeCtrl_bufferBase (s : State) (v : Byte) : (s.writeCtrl v).bufferBase = s.bufferBase := rfl
@[simp] theorem State.writeCtrl_length (s : State) (v : Byte) : (s.writeCtrl v).length = s.length := rfl
@[simp] theorem State.writeCtrl_cursor (s : State) (v : Byte) : (s.writeCtrl v).cursor = s.cursor := rfl
@[simp] theorem State.writeCtrl_lastEvent (s : State) (v : Byte) : (s.writeCtrl v).lastEvent = s.lastEvent := rfl
@[simp] theorem State.writeCtrl_targetAddress (s : State) (v : Byte) : (s.writeCtrl v).targetAddress = s.targetAddress := rfl
@[simp] theorem State.writeCtrl_timeoutBudget (s : State) (v : Byte) : (s.writeCtrl v).timeoutBudget = s.timeoutBudget := rfl
@[simp] theorem State.writeCtrl_roleState (s : State) (v : Byte) : (s.writeCtrl v).roleState = s.roleState := rfl
@[simp] theorem State.writeCtrl_transferMode (s : State) (v : Byte) : (s.writeCtrl v).transferMode = s.transferMode := rfl
@[simp] theorem State.writeCtrl_slots (s : State) (v : Byte) : (s.writeCtrl v).slots = s.slots := rfl
@[simp] theorem State.writeCtrl_phase (s : State) (v : Byte) : (s.writeCtrl v).phase = s.phase := rfl
@[simp] theorem State.writeCtrl_waitK (s : State) (v : Byte) : (s.writeCtrl v).waitK = s.waitK := rfl
@[simp] theorem State.writeCtrl_op (s : State) (v : Byte) : (s.writeCtrl v).op = s.op := rfl
@[simp] theorem State.writeCtrl_ctrlEn (s : State) (v : Byte) : (s.writeCtrl v).ctrlEn = (v.getLsbD 2) := rfl
@[simp] theorem State.writeCtrl_ctrlIe (s : State) (v : Byte) : (s.writeCtrl v).ctrlIe = (v.getLsbD 0) := rfl
@[simp] theorem State.writeCtrl_ctrlEa (s : State) (v : Byte) : (s.writeCtrl v).ctrlEa = (v.getLsbD 6) := rfl
@[simp] theorem State.writeCtrl_ctrlSta (s : State) (v : Byte) : (s.writeCtrl v).ctrlSta = (v.getLsbD 5) := rfl
@[simp] theorem State.writeCtrl_irqFlag (s : State) (v : Byte) : (s.writeCtrl v).irqFlag = (s.irqFlag && !v.getLsbD 7 && v.getLsbD 2) := rfl
@[simp] theorem State.writeCtrl_stopPending (s : State) (v : Byte) : (s.writeCtrl v).stopPending = ((s.stopPending || v.getLsbD 4) && v.getLsbD 2) := rfl
@[simp] theorem State.writeCtrl_data (s : State) (v : Byte) : (s.writeCtrl v).data = s.data := rfl
@[simp] theorem State.writeCtrl_sr (s : State) (v : Byte) : (s.writeCtrl v).sr = s.sr := rfl
@[simp] theorem State.writeCtrl_baud (s : State) (v : Byte) : (s.writeCtrl v).baud = s.baud := rfl
@[simp] theorem State.writeCtrl_addr (s : State) (v : Byte) : (s.writeCtrl v).addr = s.addr := rfl
@[simp] theorem State.writeCtrl_amask (s : State) (v : Byte) : (s.writeCtrl v).amask = s.amask := rfl
@[simp] theorem State.writeCtrl_pullupEn (s : State) (v : Byte) : (s.writeCtrl v).pullupEn = s.pullupEn := rfl
@[simp] theorem State.writeCtrl_mem (s : State) (v : Byte) : (s.writeCtrl v).mem = s.mem := rfl
@[simp] theorem State.writeCtrl_alloc (s : State) (v : Byte) : (s.writeCtrl v).alloc = s.alloc := rfl
@[simp] theorem State.writeCtrl_faults (s : State) (v : Byte) : (s.writeCtrl v).faults = s.faults := rfl
@[simp] theorem State.writeCtrl_refused (s : State) (v : Byte) : (s.writeCtrl v).refused = s.refused := rfl
@[simp] theorem State.writeCtrl_script (s : State) (v : Byte) : (s.writeCtrl v).script = s.script := rfl
@[simp] theorem State.writeCtrl_answers (s : State) (v : Byte) : (s.writeCtrl v).answers = s.answers := rfl
@[simp] theorem State.writeCtrl_freeCount (s : State) (v : Byte) : (s.writeCtrl v).freeCount = s.freeCount := rfl
@[simp] theorem State.writeCtrl_results (s : State) (v : Byte) : (s.writeCtrl v).results = s.results := rfl
@[simp] theorem State.writeCtrl_calls (s : State) (v : Byte) : (s.writeCtrl v).calls = s.calls := rfl
@[simp] theorem State.writeCtrl_portLog (s : State) (v : Byte) : (s.writeCtrl v).portLog = (s.portLog ++ [.write .ctrl v]) := rfl

@[simp] theorem State.writeData_bufferBase (s : State) (v : Byte) : (s.writeData v).bufferBase = s.bufferBase := rfl
@[simp] theorem State.writeData_length (s : State) (v : Byte) : (s.writeData v).length = s.length := rfl
@[simp] theorem State.writeData_cursor (s : State) (v : Byte) : (s.writeData v).cursor = s.cursor := rfl
@[simp] theorem State.writeData_lastEvent (s : State) (v : Byte) : (s.writeData v).lastEvent = s.lastEvent := rfl
@[simp] theorem State.writeData_targetAddress (s : State) (v : Byte) : (s.writeData v).targetAddress = s.targetAddress := rfl
@[simp] theorem State.writeData_timeoutBudget (s : State) (v : Byte) : (s.writeData v).timeoutBudget = s.timeoutBudget := rfl
@[simp] theorem State.writeData_roleState (s : State) (v : Byte) : (s.writeData v).roleState = s.roleState := rfl
@[simp] theorem State.writeData_transferMode (s : State) (v : Byte) : (s.writeData v).transferMode = s.transferMode := rfl
@[simp] theorem State.writeData_slots (s : State) (v : Byte) : (s.writeData v).slots = s.slots := rfl
@[simp] theorem State.writeData_phase (s : State) (v : Byte) : (s.writeData v).phase = s.phase := rfl
@[simp] theorem State.writeData_waitK (s : State) (v : Byte) : (s.writeData v).waitK = s.waitK := rfl
@[simp] theorem State.writeData_op (s : State) (v : Byte) : (s.writeData v).op = s.op := rfl
@[simp] theorem State.writeData_ctrlEn (s : State) (v : Byte) : (s.writeData v).ctrlEn = s.ctrlEn := rfl
@[simp] theorem State.writeData_ctrlIe (s : State) (v : Byte) : (s.writeData v).ctrlIe = s.ctrlIe := rfl
@[simp] theorem State.writeData_ctrlEa (s : State) (v : Byte) : (s.writeData v).ctrlEa = s.ctrlEa := rfl
@[simp] theorem State.writeData_ctrlSta (s : State) (v : Byte) : (s.writeData v).ctrlSta = s.ctrlSta := rfl
@[simp] theorem State.writeData_irqFlag (s : State) (v : Byte) : (s.writeData v).irqFlag = s.irqFlag := rfl
@[simp] theorem State.writeData_stopPending (s : State) (v : Byte) : (s.writeData v).stopPending = s.stopPending := rfl
@[simp] theorem State.writeData_data (s : State) (v : Byte) : (s.writeData v).data = (v) := rfl
@[simp] theorem State.writeData_sr (s : State) (v : Byte) : (s.writeData v).sr = s.sr := rfl
@[simp] theorem State.writeData_baud (s : State) (v : Byte) : (s.writeData v).baud = s.baud := rfl
@[simp] theorem State.writeData_addr (s : State) (v : Byte) : (s.writeData v).addr = s.addr := rfl
@[simp] theorem State.writeData_amask (s : State) (v : Byte) : (s.writeData v).amask = s.amask := rfl
@[simp] theorem State.writeData_pullupEn (s : State) (v : Byte) : (s.writeData v).pullupEn = s.pullupEn := rfl
@[simp] theorem State.writeData_mem (s : State) (v : Byte) : (s.writeData v).mem = s.mem := rfl
@[simp] theorem State.writeData_alloc (s : State) (v : Byte) : (s.writeData v).alloc = s.alloc := rfl
@[simp] theorem State.writeData_faults (s : State) (v : Byte) : (s.writeData v).faults = s.faults := rfl
@[simp] theorem State.writeData_refused (s : State) (v : Byte) : (s.writeData v).refused = s.refused := rfl
@[simp] theorem State.writeData_script (s : State) (v : Byte) : (s.writeData v).script = s.script := rfl
@[simp] theorem State.writeData_answers (s : State) (v : Byte) : (s.writeData v).answers = s.answers := rfl
@[simp] theorem State.writeData_freeCount (s : State) (v : Byte) : (s.writeData v).freeCount = s.freeCount := rfl
@[simp] theorem State.writeData_results (s : State) (v : Byte) : (s.writeData v).results = s.results := rfl
@[simp] theorem State.writeData_calls (s : State) (v : Byte) : (s.writeData v).calls = s.calls := rfl
@[simp] theorem State.writeData_portLog (s : State) (v : Byte) : (s.writeData v).portLog = (s.portLog ++ [.write .data v]) := rfl

@[simp] theorem State.reported_bufferBase (s : State) (code d : Byte) : (s.reported code d).bufferBase = s.bufferBase := rfl
@[simp] theorem State.reported_length (s : State) (code d : Byte) : (s.reported code d).length = s.length := rfl
@[simp] theorem State.reported_cursor (s : State) (code d : Byte) : (s.reported code d).cursor = s.cursor := rfl
@[simp] theorem State.reported_lastEvent (s : State) (code d : Byte) : (s.reported code d).lastEvent = s.lastEvent := rfl
@[simp] theorem State.reported_targetAddress (s : State) (code d : Byte) : (s.reported code d).targetAddress = s.targetAddress := rfl
@[simp] theorem State.reported_timeoutBudget (s : State) (code d : Byte) : (s.reported code d).timeoutBudget = s.timeoutBudget := rfl
@[simp] theorem State.reported_roleState (s : State) (code d : Byte) : (s.reported code d).roleState = s.roleState := rfl
@[simp] theorem State.reported_transferMode (s : State) (code d : Byte) : (s.reported code d).transferMode = s.transferMode := rfl
@[simp] theorem State.reported_slots (s : State) (code d : Byte) : (s.reported code d).slots = s.slots := rfl
@[simp] theorem State.reported_phase (s : State) (code d : Byte) : (s.reported code d).phase = s.phase := rfl
@[simp] theorem State.reported_waitK (s : State) (code d : Byte) : (s.reported code d).waitK = s.waitK := rfl
@[simp] theorem State.reported_op (s : State) (code d : Byte) : (s.reported code d).op = s.op := rfl
@[simp] theorem State.reported_ctrlEn (s : State) (code d : Byte) : (s.reported code d).ctrlEn = s.ctrlEn := rfl
@[simp] theorem State.reported_ctrlIe (s : State) (code d : Byte) : (s.reported code d).ctrlIe = s.ctrlIe := rfl
@[simp] theorem State.reported_ctrlEa (s : State) (code d : Byte) : (s.reported code d).ctrlEa = s.ctrlEa := rfl
@[simp] theorem State.reported_ctrlSta (s : State) (code d : Byte) : (s.reported code d).ctrlSta = s.ctrlSta := rfl
@[simp] theorem State.reported_irqFlag (s : State) (code d : Byte) : (s.reported code d).irqFlag = (true) := rfl
@[simp] theorem State.reported_stopPending (s : State) (code d : Byte) : (s.reported code d).stopPending = s.stopPending := rfl
@[simp] theorem State.reported_data (s : State) (code d : Byte) : (s.reported code d).data = (d) := rfl
@[simp] theorem State.reported_sr (s : State) (code d : Byte) : (s.reported code d).sr = (setStatus s.sr code) := rfl
@[simp] theorem State.reported_baud (s : State) (code d : Byte) : (s.reported code d).baud = s.baud := rfl
@[simp] theorem State.reported_addr (s : State) (code d : Byte) : (s.reported code d).addr = s.addr := rfl
@[simp] theorem State.reported_amask (s : State) (code d : Byte) : (s.reported code d).amask = s.amask := rfl
@[simp] theorem State.reported_pullupEn (s : State) (code d : Byte) : (s.reported code d).pullupEn = s.pullupEn := rfl
@[simp] theorem State.reported_mem (s : State) (code d : Byte) : (s.reported code d).mem = s.mem := rfl
@[simp] theorem State.reported_alloc (s : State) (code d : Byte) : (s.reported code d).alloc = s.alloc := rfl
@[simp] theorem State.reported_faults (s : State) (code d : Byte) : (s.reported code d).faults = s.faults := rfl
@[simp] theorem State.reported_refused (s : State) (code d : Byte) : (s.reported code d).refused = s.refused := rfl
@[simp] theorem State.reported_script (s : State) (code d : Byte) : (s.reported code d).script = s.script := rfl
@[simp] theorem State.reported_answers (s : State) (code d : Byte) : (s.reported code d).answers = s.answers := rfl
@[simp] theorem State.reported_freeCount (s : State) (code d : Byte) : (s.reported code d).freeCount = s.freeCount := rfl
@[simp] theorem State.reported_results (s : State) (code d : Byte) : (s.reported code d).results = s.results := rfl
@[simp] theorem State.reported_calls (s : State) (code d : Byte) : (s.reported code d).calls = s.calls := rfl
@[simp] theorem State.reported_portLog (s : State) (code d : Byte) : (s.reported code d).portLog = s.portLog := rfl

@[simp] theorem State.returned_bufferBase (s : State) (v : Byte) : (s.returned v).bufferBase = s.bufferBase := rfl
@[simp] theorem State.returned_length (s : State) (v : Byte) : (s.returned v).length = s.length := rfl
@[simp] theorem State.returned_cursor (s : State) (v : Byte) : (s.returned v).cursor = s.cursor := rfl
@[simp] theorem State.returned_lastEvent (s : State) (v : Byte) : (s.returned v).lastEvent = s.lastEvent := rfl
@[simp] theorem State.returned_targetAddress (s : State) (v : Byte) : (s.returned v).targetAddress = s.targetAddress := rfl
@[simp] theorem State.returned_timeoutBudget (s : State) (v : Byte) : (s.returned v).timeoutBudget = s.timeoutBudget := rfl
@[simp] theorem State.returned_roleState (s : State) (v : Byte) : (s.returned v).roleState = s.roleState := rfl
@[simp] theorem State.returned_transferMode (s : State) (v : Byte) : (s.returned v).transferMode = s.transferMode := rfl
@[simp] theorem State.returned_slots (s : State) (v : Byte) : (s.returned v).slots = s.slots := rfl
@[simp] theorem State.returned_phase (s : State) (v : Byte) : (s.returned v).phase = (.ready) := rfl
@[simp] theorem State.returned_waitK (s : State) (v : Byte) : (s.returned v).waitK = s.waitK := rfl
@[simp] theorem State.returned_op (s : State) (v : Byte) : (s.returned v).op = s.op := rfl
@[simp] theorem State.returned_ctrlEn (s : State) (v : Byte) : (s.returned v).ctrlEn = s.ctrlEn := rfl
@[simp] theorem State.returned_ctrlIe (s : State) (v : Byte) : (s.returned v).ctrlIe = s.ctrlIe := rfl
@[simp] theorem State.returned_ctrlEa (s : State) (v : Byte) : (s.returned v).ctrlEa = s.ctrlEa := rfl
@[simp] theorem State.returned_ctrlSta (s : State) (v : Byte) : (s.returned v).ctrlSta = s.ctrlSta := rfl
@[simp] theorem State.returned_irqFlag (s : State) (v : Byte) : (s.returned v).irqFlag = s.irqFlag := rfl
@[simp] theorem State.returned_stopPending (s : State) (v : Byte) : (s.returned v).stopPending = s.stopPending := rfl
@[simp] theorem State.returned_data (s : State) (v : Byte) : (s.returned v).data = s.data := rfl
@[simp] theorem State.returned_sr (s : State) (v : Byte) : (s.returned v).sr = s.sr := rfl
@[simp] theorem State.returned_baud (s : State) (v : Byte) : (s.returned v).baud = s.baud := rfl
@[simp] theorem State.returned_addr (s : State) (v : Byte) : (s.returned v).addr = s.addr := rfl
@[simp] theorem State.returned_amask (s : State) (v : Byte) : (s.returned v).amask = s.amask := rfl
@[simp] theorem State.returned_pullupEn (s : State) (v : Byte) : (s.returned v).pullupEn = s.pullupEn := rfl
@[simp] theorem State.returned_mem (s : State) (v : Byte) : (s.returned v).mem = s.mem := rfl
@[simp] theorem State.returned_alloc (s : State) (v : Byte) : (s.returned v).alloc = s.alloc := rfl
@[simp] theorem State.returned_faults (s : State) (v : Byte) : (s.returned v).faults = s.faults := rfl
@[simp] theorem State.returned_refused (s : State) (v : Byte) : (s.returned v).refused = s.refused := rfl
@[simp] theorem State.returned_script (s : State) (v : Byte) : (s.returned v).script = s.script := rfl
@[simp] theorem State.returned_answers (s : State) (v : Byte) : (s.returned v).answers = s.answers := rfl
@[simp] theorem State.returned_freeCount (s : State) (v : Byte) : (s.returned v).freeCount = s.freeCount := rfl
@[simp] theorem State.returned_results (s : State) (v : Byte) : (s.returned v).results = (s.results ++ [v]) := rfl
@[simp] theorem State.returned_calls (s : State) (v : Byte) : (s.returned v).calls = s.calls := rfl
@[simp] theorem State.returned_portLog (s : State) (v : Byte) : (s.returned v).portLog = s.portLog := rfl

@[simp] theorem State.startWait_bufferBase (s : State) (p : Phase) : (s.startWait p).bufferBase = s.bufferBase := rfl
@[simp] theorem State.startWait_length (s : State) (p : Phase) : (s.startWait p).length = s.length := rfl
@[simp] theorem State.startWait_cursor (s : State) (p : Phase) : (s.startWait p).cursor = s.cursor := rfl
@[simp] theorem State.startWait_lastEvent (s : State) (p : Phase) : (s.startWait p).lastEvent = s.lastEvent := rfl
@[simp] theorem State.startWait_targetAddress (s : State) (p : Phase) : (s.startWait p).targetAddress = s.targetAddress := rfl
@[simp] theorem State.startWait_timeoutBudget (s : State) (p : Phase) : (s.startWait p).timeoutBudget = s.timeoutBudget := rfl
@[simp] theorem State.startWait_roleState (s : State) (p : Phase) : (s.startWait p).roleState = s.roleState := rfl
@[simp] theorem State.startWait_transferMode (s : State) (p : Phase) : (s.startWait p).transferMode = s.transferMode := rfl
@[simp] theorem State.startWait_slots (s : State) (p : Phase) : (s.startWait p).slots = s.slots := rfl
@[simp] theorem State.startWait_phase (s : State) (p : Phase) : (s.startWait p).phase = (p) := rfl
@[simp] theorem State.startWait_waitK (s : State) (p : Phase) : (s.startWait p).waitK = (0#16) := rfl
@[simp] theorem State.startWait_op (s : State) (p : Phase) : (s.startWait p).op = s.op := rfl
@[simp] theorem State.startWait_ctrlEn (s : State) (p : Phase) : (s.startWait p).ctrlEn = s.ctrlEn := rfl
@[simp] theorem State.startWait_ctrlIe (s : State) (p : Phase) : (s.startWait p).ctrlIe = s.ctrlIe := rfl
@[simp] theorem State.startWait_ctrlEa (s : State) (p : Phase) : (s.startWait p).ctrlEa = s.ctrlEa := rfl
@[simp] theorem State.startWait_ctrlSta (s : State) (p : Phase) : (s.startWait p).ctrlSta = s.ctrlSta := rfl
@[simp] theorem State.startWait_irqFlag (s : State) (p : Phase) : (s.startWait p).irqFlag = s.irqFlag := rfl
@[simp] theorem State.startWait_stopPending (s : State) (p : Phase) : (s.startWait p).stopPending = s.stopPending := rfl
@[simp] theorem State.startWait_data (s : State) (p : Phase) : (s.startWait p).data = s.data := rfl
@[simp] theorem State.startWait_sr (s : State) (p : Phase) : (s.startWait p).sr = s.sr := rfl
@[simp] theorem State.startWait_baud (s : State) (p : Phase) : (s.startWait p).baud = s.baud := rfl
@[simp] theorem State.startWait_addr (s : State) (p : Phase) : (s.startWait p).addr = s.addr := rfl
@[simp] theorem State.startWait_amask (s : State) (p : Phase) : (s.startWait p).amask = s.amask := rfl
@[simp] theorem State.startWait_pullupEn (s : State) (p : Phase) : (s.startWait p).pullupEn = s.pullupEn := rfl
@[simp] theorem State.startWait_mem (s : State) (p : Phase) : (s.startWait p).mem = s.mem := rfl
@[simp] theorem State.startWait_alloc (s : State) (p : Phase) : (s.startWait p).alloc = s.alloc := rfl
@[simp] theorem State.startWait_faults (s : State) (p : Phase) : (s.startWait p).faults = s.faults := rfl
@[simp] theorem State.startWait_refused (s : State) (p : Phase) : (s.startWait p).refused = s.refused := rfl
@[simp] theorem State.startWait_script (s : State) (p : Phase) : (s.startWait p).script = s.script := rfl
@[simp] theorem State.startWait_answers (s : State) (p : Phase) : (s.startWait p).answers = s.answers := rfl
@[simp] theorem State.startWait_freeCount (s : State) (p : Phase) : (s.startWait p).freeCount = s.freeCount := rfl
@[simp] theorem State.startWait_results (s : State) (p : Phase) : (s.startWait p).results = s.results := rfl
@[simp] theorem State.startWait_calls (s : State) (p : Phase) : (s.startWait p).calls = s.calls := rfl
@[simp] theorem State.startWait_portLog (s : State) (p : Phase) : (s.startWait p).portLog = s.portLog := rfl

@[simp] theorem State.armed_bufferBase (s : State) (o : Op) : (s.armed o).bufferBase = (some o.buf) := rfl
@[simp] theorem State.armed_length (s : State) (o : Op) : (s.armed o).length = (some o.len) := rfl
@[simp] theorem State.armed_cursor (s : State) (o : Op) : (s.armed o).cursor = (some 0#16) := rfl
@[simp] theorem State.armed_lastEvent (s : State) (o : Op) : (s.armed o).lastEvent = s.lastEvent := rfl
@[simp] theorem State.armed_targetAddress (s : State) (o : Op) : (s.armed o).targetAddress = (some (slaByte o.address o.dir)) := rfl
@[simp] theorem State.armed_timeoutBudget (s : State) (o : Op) : (s.armed o).timeoutBudget = s.timeoutBudget := rfl
@[simp] theorem State.armed_roleState (s : State) (o : Op) : (s.armed o).roleState = s.roleState := rfl
@[simp] theorem State.armed_transferMode (s : State) (o : Op) : (s.armed o).transferMode = (armedMode o.dir) := rfl
@[simp] theorem State.armed_slots (s : State) (o : Op) : (s.armed o).slots = s.slots := rfl
@[simp] theorem State.armed_phase (s : State) (o : Op) : (s.armed o).phase = s.phase := rfl
@[simp] theorem State.armed_waitK (s : State) (o : Op) : (s.armed o).waitK = s.waitK := rfl
@[simp] theorem State.armed_op (s : State) (o : Op) : (s.armed o).op = s.op := rfl
@[simp] theorem State.armed_ctrlEn (s : State) (o : Op) : (s.armed o).ctrlEn = s.ctrlEn := rfl
@[simp] theorem State.armed_ctrlIe (s : State) (o : Op) : (s.armed o).ctrlIe = s.ctrlIe := rfl
@[simp] theorem State.armed_ctrlEa (s : State) (o : Op) : (s.armed o).ctrlEa = s.ctrlEa := rfl
@[simp] theorem State.armed_ctrlSta (s : State) (o : Op) : (s.armed o).ctrlSta = s.ctrlSta := rfl
@[simp] theorem State.armed_irqFlag (s : State) (o : Op) : (s.armed o).irqFlag = s.irqFlag := rfl
@[simp] theorem State.armed_stopPending (s : State) (o : Op) : (s.armed o).stopPending = s.stopPending := rfl
@[simp] theorem State.armed_data (s : State) (o : Op) : (s.armed o).data = s.data := rfl
@[simp] theorem State.armed_sr (s : State) (o : Op) : (s.armed o).sr = s.sr := rfl
@[simp] theorem State.armed_baud (s : State) (o : Op) : (s.armed o).baud = s.baud := rfl
@[simp] theorem State.armed_addr (s : State) (o : Op) : (s.armed o).addr = s.addr := rfl
@[simp] theorem State.armed_amask (s : State) (o : Op) : (s.armed o).amask = s.amask := rfl
@[simp] theorem State.armed_pullupEn (s : State) (o : Op) : (s.armed o).pullupEn = s.pullupEn := rfl
@[simp] theorem State.armed_mem (s : State) (o : Op) : (s.armed o).mem = s.mem := rfl
@[simp] theorem State.armed_alloc (s : State) (o : Op) : (s.armed o).alloc = s.alloc := rfl
@[simp] theorem State.armed_faults (s : State) (o : Op) : (s.armed o).faults = s.faults := rfl
@[simp] theorem State.armed_refused (s : State) (o : Op) : (s.armed o).refused = s.refused := rfl
@[simp] theorem State.armed_script (s : State) (o : Op) : (s.armed o).script = s.script := rfl
@[simp] theorem State.armed_answers (s : State) (o : Op) : (s.armed o).answers = s.answers := rfl
@[simp] theorem State.armed_freeCount (s : State) (o : Op) : (s.armed o).freeCount = s.freeCount := rfl
@[simp] theorem State.armed_results (s : State) (o : Op) : (s.armed o).results = s.results := rfl
@[simp] theorem State.armed_calls (s : State) (o : Op) : (s.armed o).calls = s.calls := rfl
@[simp] theorem State.armed_portLog (s : State) (o : Op) : (s.armed o).portLog = s.portLog := rfl

@[simp] theorem State.afterReport_bufferBase (s : State) (code d : Byte) : (s.afterReport code d).bufferBase = s.bufferBase := rfl
@[simp] theorem State.afterReport_length (s : State) (code d : Byte) : (s.afterReport code d).length = s.length := rfl
@[simp] theorem State.afterReport_cursor (s : State) (code d : Byte) : (s.afterReport code d).cursor = s.cursor := rfl
@[simp] theorem State.afterReport_lastEvent (s : State) (code d : Byte) : (s.afterReport code d).lastEvent = (some code) := rfl
@[simp] theorem State.afterReport_targetAddress (s : State) (code d : Byte) : (s.afterReport code d).targetAddress = s.targetAddress := rfl
@[simp] theorem State.afterReport_timeoutBudget (s : State) (code d : Byte) : (s.afterReport code d).timeoutBudget = s.timeoutBudget := rfl
@[simp] theorem State.afterReport_roleState (s : State) (code d : Byte) : (s.afterReport code d).roleState = s.roleState := rfl
@[simp] theorem State.afterReport_transferMode (s : State) (code d : Byte) : (s.afterReport code d).transferMode = s.transferMode := rfl
@[simp] theorem State.afterReport_slots (s : State) (code d : Byte) : (s.afterReport code d).slots = s.slots := rfl
@[simp] theorem State.afterReport_phase (s : State) (code d : Byte) : (s.afterReport code d).phase = s.phase := rfl
@[simp] theorem State.afterReport_waitK (s : State) (code d : Byte) : (s.afterReport code d).waitK = s.waitK := rfl
@[simp] theorem State.afterReport_op (s : State) (code d : Byte) : (s.afterReport code d).op = s.op := rfl
@[simp] theorem State.afterReport_ctrlEn (s : State) (code d : Byte) : (s.afterReport code d).ctrlEn = s.ctrlEn := rfl
@[simp] theorem State.afterReport_ctrlIe (s : State) (code d : Byte) : (s.afterReport code d).ctrlIe = s.ctrlIe := rfl
@[simp] theorem State.afterReport_ctrlEa (s : State) (code d : Byte) : (s.afterReport code d).ctrlEa = s.ctrlEa := rfl
@[simp] theorem State.afterReport_ctrlSta (s : State) (code d : Byte) : (s.afterReport code d).ctrlSta = s.ctrlSta := rfl
@[simp] theorem State.afterReport_irqFlag (s : State) (code d : Byte) : (s.afterReport code d).irqFlag = (true) := rfl
@[simp] theorem State.afterReport_stopPending (s : State) (code d : Byte) : (s.afterReport code d).stopPending = s.stopPending := rfl
@[simp] theorem State.afterReport_data (s : State) (code d : Byte) : (s.afterReport code d).data = (d) := rfl
@[simp] theorem State.afterReport_sr (s : State) (code d : Byte) : (s.afterReport code d).sr = ((s.sr &&& 0x07#8) ||| code) := rfl
@[simp] theorem State.afterReport_baud (s : State) (code d : Byte) : (s.afterReport code d).baud = s.baud := rfl
@[simp] theorem State.afterReport_addr (s : State) (code d : Byte) : (s.afterReport code d).addr = s.addr := rfl
@[simp] theorem State.afterReport_amask (s : State) (code d : Byte) : (s.afterReport code d).amask = s.amask := rfl
@[simp] theorem State.afterReport_pullupEn (s : State) (code d : Byte) : (s.afterReport code d).pullupEn = s.pullupEn := rfl
@[simp] theorem State.afterReport_mem (s : State) (code d : Byte) : (s.afterReport code d).mem = s.mem := rfl
@[simp] theorem State.afterReport_alloc (s : State) (code d : Byte) : (s.afterReport code d).alloc = s.alloc := rfl
@[simp] theorem State.afterReport_faults (s : State) (code d : Byte) : (s.afterReport code d).faults = s.faults := rfl
@[simp] theorem State.afterReport_refused (s : State) (code d : Byte) : (s.afterReport code d).refused = s.refused := rfl
@[simp] theorem State.afterReport_script (s : State) (code d : Byte) : (s.afterReport code d).script = s.script := rfl
@[simp] theorem State.afterReport_answers (s : State) (code d : Byte) : (s.afterReport code d).answers = s.answers := rfl
@[simp] theorem State.afterReport_freeCount (s : State) (code d : Byte) : (s.afterReport code d).freeCount = s.freeCount := rfl
@[simp] theorem State.afterReport_results (s : State) (code d : Byte) : (s.afterReport code d).results = s.results := rfl
@[simp] theorem State.afterReport_calls (s : State) (code d : Byte) : (s.afterReport code d).calls = s.calls := rfl
@[simp] theorem State.afterReport_portLog (s : State) (code d : Byte) : (s.afterReport code d).portLog = (s.portLog ++ [.read .sr]) := rfl

@[simp] theorem State.afterDataRead_bufferBase (s : State) : (s.afterDataRead).bufferBase = s.bufferBase := rfl
@[simp] theorem State.afterDataRead_length (s : State) : (s.afterDataRead).length = s.length := rfl
@[simp] theorem State.afterDataRead_cursor (s : State) : (s.afterDataRead).cursor = s.cursor := rfl
@[simp] theorem State.afterDataRead_lastEvent (s : State) : (s.afterDataRead).lastEvent = s.lastEvent := rfl
@[simp] theorem State.afterDataRead_targetAddress (s : State) : (s.afterDataRead).targetAddress = s.targetAddress := rfl
@[simp] theorem State.afterDataRead_timeoutBudget (s : State) : (s.afterDataRead).timeoutBudget = s.timeoutBudget := rfl
@[simp] theorem State.afterDataRead_roleState (s : State) : (s.afterDataRead).roleState = s.roleState := rfl
@[simp] theorem State.afterDataRead_transferMode (s : State) : (s.afterDataRead).transferMode = s.transferMode := rfl
@[simp] theorem State.afterDataRead_slots (s : State) : (s.afterDataRead).slots = s.slots := rfl
@[simp] theorem State.afterDataRead_phase (s : State) : (s.afterDataRead).phase = s.phase := rfl
@[simp] theorem State.afterDataRead_waitK (s : State) : (s.afterDataRead).waitK = s.waitK := rfl
@[simp] theorem State.afterDataRead_op (s : State) : (s.afterDataRead).op = s.op := rfl
@[simp] theorem State.afterDataRead_ctrlEn (s : State) : (s.afterDataRead).ctrlEn = s.ctrlEn := rfl
@[simp] theorem State.afterDataRead_ctrlIe (s : State) : (s.afterDataRead).ctrlIe = s.ctrlIe := rfl
@[simp] theorem State.afterDataRead_ctrlEa (s : State) : (s.afterDataRead).ctrlEa = s.ctrlEa := rfl
@[simp] theorem State.afterDataRead_ctrlSta (s : State) : (s.afterDataRead).ctrlSta = s.ctrlSta := rfl
@[simp] theorem State.afterDataRead_irqFlag (s : State) : (s.afterDataRead).irqFlag = s.irqFlag := rfl
@[simp] theorem State.afterDataRead_stopPending (s : State) : (s.afterDataRead).stopPending = s.stopPending := rfl
@[simp] theorem State.afterDataRead_data (s : State) : (s.afterDataRead).data = s.data := rfl
@[simp] theorem State.afterDataRead_sr (s : State) : (s.afterDataRead).sr = s.sr := rfl
@[simp] theorem State.afterDataRead_baud (s : State) : (s.afterDataRead).baud = s.baud := rfl
@[simp] theorem State.afterDataRead_addr (s : State) : (s.afterDataRead).addr = s.addr := rfl
@[simp] theorem State.afterDataRead_amask (s : State) : (s.afterDataRead).amask = s.amask := rfl
@[simp] theorem State.afterDataRead_pullupEn (s : State) : (s.afterDataRead).pullupEn = s.pullupEn := rfl
@[simp] theorem State.afterDataRead_mem (s : State) : (s.afterDataRead).mem = s.mem := rfl
@[simp] theorem State.afterDataRead_alloc (s : State) : (s.afterDataRead).alloc = s.alloc := rfl
@[simp] theorem State.afterDataRead_faults (s : State) : (s.afterDataRead).faults = s.faults := rfl
@[simp] theorem State.afterDataRead_refused (s : State) : (s.afterDataRead).refused = s.refused := rfl
@[simp] theorem State.afterDataRead_script (s : State) : (s.afterDataRead).script = s.script := rfl
@[simp] theorem State.afterDataRead_answers (s : State) : (s.afterDataRead).answers = s.answers := rfl
@[simp] theorem State.afterDataRead_freeCount (s : State) : (s.afterDataRead).freeCount = s.freeCount := rfl
@[simp] theorem State.afterDataRead_results (s : State) : (s.afterDataRead).results = s.results := rfl
@[simp] theorem State.afterDataRead_calls (s : State) : (s.afterDataRead).calls = s.calls := rfl
@[simp] theorem State.afterDataRead_portLog (s : State) : (s.afterDataRead).portLog = (s.portLog ++ [.read .data]) := rfl

@[simp] theorem State.afterCommand_bufferBase (s : State) (ack sta sto : Bool) : (s.afterCommand ack sta sto).bufferBase = s.bufferBase := rfl
@[simp] theorem State.afterCommand_length (s : State) (ack sta sto : Bool) : (s.afterCommand ack sta sto).length = s.length := rfl
@[simp] theorem State.afterCommand_cursor (s : State) (ack sta sto : Bool) : (s.afterCommand ack sta sto).cursor = s.cursor := rfl
@[simp] theorem State.afterCommand_lastEvent (s : State) (ack sta sto : Bool) : (s.afterCommand ack sta sto).lastEvent = s.lastEvent := rfl
@[simp] theorem State.afterCommand_targetAddress (s : State) (ack sta sto : Bool) : (s.afterCommand ack sta sto).targetAddress = s.targetAddress := rfl
@[simp] theorem State.afterCommand_timeoutBudget (s : State) (ack sta sto : Bool) : (s.afterCommand ack sta sto).timeoutBudget = s.timeoutBudget := rfl
@[simp] theorem State.afterCommand_roleState (s : State) (ack sta sto : Bool) : (s.afterCommand ack sta sto).roleState = s.roleState := rfl
@[simp] theorem State.afterCommand_transferMode (s : State) (ack sta sto : Bool) : (s.afterCommand ack sta sto).transferMode = s.transferMode := rfl
@[simp] theorem State.afterCommand_slots (s : State) (ack sta sto : Bool) : (s.afterCommand ack sta sto).slots = s.slots := rfl
@[simp] theorem State.afterCommand_phase (s : State) (ack sta sto : Bool) : (s.afterCommand ack sta sto).phase = s.phase := rfl
@[simp] theorem State.afterCommand_waitK (s : State) (ack sta sto : Bool) : (s.afterCommand ack sta sto).waitK = s.waitK := rfl
@[simp] theorem State.afterCommand_op (s : State) (ack sta sto : Bool) : (s.afterCommand ack sta sto).op = s.op := rfl
@[simp] theorem State.afterCommand_ctrlEn (s : State) (ack sta sto : Bool) : (s.afterCommand ack sta sto).ctrlEn = (true) := rfl
@[simp] theorem State.afterCommand_ctrlIe (s : State) (ack sta sto : Bool) : (s.afterCommand ack sta sto).ctrlIe = (true) := rfl
@[simp] theorem State.afterCommand_ctrlEa (s : State) (ack sta sto : Bool) : (s.afterCommand ack sta sto).ctrlEa = (ack) := rfl
@[simp] theorem State.afterCommand_ctrlSta (s : State) (ack sta sto : Bool) : (s.afterCommand ack sta sto).ctrlSta = (sta) := rfl
@[simp] theorem State.afterCommand_irqFlag (s : State) (ack sta sto : Bool) : (s.afterCommand ack sta sto).irqFlag = (false) := rfl
@[simp] theorem State.afterCommand_stopPending (s : State) (ack sta sto : Bool) : (s.afterCommand ack sta sto).stopPending = (s.stopPending || sto) := rfl
@[simp] theorem State.afterCommand_data (s : State) (ack sta sto : Bool) : (s.afterCommand ack sta sto).data = s.data := rfl
@[simp] theorem State.afterCommand_sr (s : State) (ack sta sto : Bool) : (s.afterCommand ack sta sto).sr = s.sr := rfl
@[simp] theorem State.afterCommand_baud (s : State) (ack sta sto : Bool) : (s.afterCommand ack sta sto).baud = s.baud := rfl
@[simp] theorem State.afterCommand_addr (s : State) (ack sta sto : Bool) : (s.afterCommand ack sta sto).addr = s.addr := rfl
@[simp] theorem State.afterCommand_amask (s : State) (ack sta sto : Bool) : (s.afterCommand ack sta sto).amask = s.amask := rfl
@[simp] theorem State.afterCommand_pullupEn (s : State) (ack sta sto : Bool) : (s.afterCommand ack sta sto).pullupEn = s.pullupEn := rfl
@[simp] theorem State.afterCommand_mem (s : State) (ack sta sto : Bool) : (s.afterCommand ack sta sto).mem = s.mem := rfl
@[simp] theorem State.afterCommand_alloc (s : State) (ack sta sto : Bool) : (s.afterCommand ack sta sto).alloc = s.alloc := rfl
@[simp] theorem State.afterCommand_faults (s : State) (ack sta sto : Bool) : (s.afterCommand ack sta sto).faults = s.faults := rfl
@[simp] theorem State.afterCommand_refused (s : State) (ack sta sto : Bool) : (s.afterCommand ack sta sto).refused = s.refused := rfl
@[simp] theorem State.afterCommand_script (s : State) (ack sta sto : Bool) : (s.afterCommand ack sta sto).script = s.script := rfl
@[simp] theorem State.afterCommand_answers (s : State) (ack sta sto : Bool) : (s.afterCommand ack sta sto).answers = s.answers := rfl
@[simp] theorem State.afterCommand_freeCount (s : State) (ack sta sto : Bool) : (s.afterCommand ack sta sto).freeCount = s.freeCount := rfl
@[simp] theorem State.afterCommand_results (s : State) (ack sta sto : Bool) : (s.afterCommand ack sta sto).results = s.results := rfl
@[simp] theorem State.afterCommand_calls (s : State) (ack sta sto : Bool) : (s.afterCommand ack sta sto).calls = s.calls := rfl
@[simp] theorem State.afterCommand_portLog (s : State) (ack sta sto : Bool) : (s.afterCommand ack sta sto).portLog = (s.portLog ++ [.write .ctrl (cmd ack sta sto)]) := rfl

@[simp] theorem State.afterByteCommand_bufferBase (s : State) (ack sta sto : Bool) (b : Byte) : (s.afterByteCommand ack sta sto b).bufferBase = s.bufferBase := rfl
@[simp] theorem State.afterByteCommand_length (s : State) (ack sta sto : Bool) (b : Byte) : (s.afterByteCommand ack sta sto b).length = s.length := rfl
@[simp] theorem State.afterByteCommand_cursor (s : State) (ack sta sto : Bool) (b : Byte) : (s.afterByteCommand ack sta sto b).cursor = s.cursor := rfl
@[simp] theorem State.afterByteCommand_lastEvent (s : State) (ack sta sto : Bool) (b : Byte) : (s.afterByteCommand ack sta sto b).lastEvent = s.lastEvent := rfl
@[simp] theorem State.afterByteCommand_targetAddress (s : State) (ack sta sto : Bool) (b : Byte) : (s.afterByteCommand ack sta sto b).targetAddress = s.targetAddress := rfl
@[simp] theorem State.afterByteCommand_timeoutBudget (s : State) (ack sta sto : Bool) (b : Byte) : (s.afterByteCommand ack sta sto b).timeoutBudget = s.timeoutBudget := rfl
@[simp] theorem State.afterByteCommand_roleState (s : State) (ack sta sto : Bool) (b : Byte) : (s.afterByteCommand ack sta sto b).roleState = s.roleState := rfl
@[simp] theorem State.afterByteCommand_transferMode (s : State) (ack sta sto : Bool) (b : Byte) : (s.afterByteCommand ack sta sto b).transferMode = s.transferMode := rfl
@[simp] theorem State.afterByteCommand_slots (s : State) (ack sta sto : Bool) (b : Byte) : (s.afterByteCommand ack sta sto b).slots = s.slots := rfl
@[simp] theorem State.afterByteCommand_phase (s : State) (ack sta sto : Bool) (b : Byte) : (s.afterByteCommand ack sta sto b).phase = s.phase := rfl
@[simp] theorem State.afterByteCommand_waitK (s : State) (ack sta sto : Bool) (b : Byte) : (s.afterByteCommand ack sta sto b).waitK = s.waitK := rfl
@[simp] theorem State.afterByteCommand_op (s : State) (ack sta sto : Bool) (b : Byte) : (s.afterByteCommand ack sta sto b).op = s.op := rfl
@[simp] theorem State.afterByteCommand_ctrlEn (s : State) (ack sta sto : Bool) (b : Byte) : (s.afterByteCommand ack sta sto b).ctrlEn = (true) := rfl
@[simp] theorem State.afterByteCommand_ctrlIe (s : State) (ack sta sto : Bool) (b : Byte) : (s.afterByteCommand ack sta sto b).ctrlIe = (true) := rfl
@[simp] theorem State.afterByteCommand_ctrlEa (s : State) (ack sta sto : Bool) (b : Byte) : (s.afterByteCommand ack sta sto b).ctrlEa = (ack) := rfl
@[simp] theorem State.afterByteCommand_ctrlSta (s : State) (ack sta sto : Bool) (b : Byte) : (s.afterByteCommand ack sta sto b).ctrlSta = (sta) := rfl
@[simp] theorem State.afterByteCommand_irqFlag (s : State) (ack sta sto : Bool) (b : Byte) : (s.afterByteCommand ack sta sto b).irqFlag = (false) := rfl
@[simp] theorem State.afterByteCommand_stopPending (s : State) (ack sta sto : Bool) (b : Byte) : (s.afterByteCommand ack sta sto b).stopPending = (s.stopPending || sto) := rfl
@[simp] theorem State.afterByteCommand_data (s : State) (ack sta sto : Bool) (b : Byte) : (s.afterByteCommand ack sta sto b).data = (b) := rfl
@[simp] theorem State.afterByteCommand_sr (s : State) (ack sta sto : Bool) (b : Byte) : (s.afterByteCommand ack sta sto b).sr = s.sr := rfl
@[simp] theorem State.afterByteCommand_baud (s : State) (ack sta sto : Bool) (b : Byte) : (s.afterByteCommand ack sta sto b).baud = s.baud := rfl
@[simp] theorem State.afterByteCommand_addr (s : State) (ack sta sto : Bool) (b : Byte) : (s.afterByteCommand ack sta sto b).addr = s.addr := rfl
@[simp] theorem State.afterByteCommand_amask (s : State) (ack sta sto : Bool) (b : Byte) : (s.afterByteCommand ack sta sto b).amask = s.amask := rfl
@[simp] theorem State.afterByteCommand_pullupEn (s : State) (ack sta sto : Bool) (b : Byte) : (s.afterByteCommand ack sta sto b).pullupEn = s.pullupEn := rfl
@[simp] theorem State.afterByteCommand_mem (s : State) (ack sta sto : Bool) (b : Byte) : (s.afterByteCommand ack sta sto b).mem = s.mem := rfl
@[simp] theorem State.afterByteCommand_alloc (s : State) (ack sta sto : Bool) (b : Byte) : (s.afterByteCommand ack sta sto b).alloc = s.alloc := rfl
@[simp] theorem State.afterByteCommand_faults (s : State) (ack sta sto : Bool) (b : Byte) : (s.afterByteCommand ack sta sto b).faults = s.faults := rfl
@[simp] theorem State.afterByteCommand_refused (s : State) (ack sta sto : Bool) (b : Byte) : (s.afterByteCommand ack sta sto b).refused = s.refused := rfl
@[simp] theorem State.afterByteCommand_script (s : State) (ack sta sto : Bool) (b : Byte) : (s.afterByteCommand ack sta sto b).script = s.script := rfl
@[simp] theorem State.afterByteCommand_answers (s : State) (ack sta sto : Bool) (b : Byte) : (s.afterByteCommand ack sta sto b).answers = s.answers := rfl
@[simp] theorem State.afterByteCommand_freeCount (s : State) (ack sta sto : Bool) (b : Byte) : (s.afterByteCommand ack sta sto b).freeCount = s.freeCount := rfl
@[simp] theorem State.afterByteCommand_results (s : State) (ack sta sto : Bool) (b : Byte) : (s.afterByteCommand ack sta sto b).results = s.results := rfl
@[simp] theorem State.afterByteCommand_calls (s : State) (ack sta sto : Bool) (b : Byte) : (s.afterByteCommand ack sta sto b).calls = s.calls := rfl
@[simp] theorem State.afterByteCommand_portLog (s : State) (ack sta sto : Bool) (b : Byte) : (s.afterByteCommand ack sta sto b).portLog = (s.portLog ++ [.write .data b, .write .ctrl (cmd ack sta sto)]) := rfl

@[simp] theorem State.afterTerminal_bufferBase (s : State) (sta sto : Bool) : (s.afterTerminal sta sto).bufferBase = s.bufferBase := rfl
@[simp] theorem State.afterTerminal_length (s : State) (sta sto : Bool) : (s.afterTerminal sta sto).length = s.length := rfl
@[simp] theorem State.afterTerminal_cursor (s : State) (sta sto : Bool) : (s.afterTerminal sta sto).cursor = s.cursor := rfl
@[simp] theorem State.afterTerminal_lastEvent (s : State) (sta sto : Bool) : (s.afterTerminal sta sto).lastEvent = s.lastEvent := rfl
@[simp] theorem State.afterTerminal_targetAddress (s : State) (sta sto : Bool) : (s.afterTerminal sta sto).targetAddress = s.targetAddress := rfl
@[simp] theorem State.afterTerminal_timeoutBudget (s : State) (sta sto : Bool) : (s.afterTerminal sta sto).timeoutBudget = s.timeoutBudget := rfl
@[simp] theorem State.afterTerminal_roleState (s : State) (sta sto : Bool) : (s.afterTerminal sta sto).roleState = (if sta then .repeatedStartPending else if sto then .idle else s.roleState) := rfl
@[simp] theorem State.afterTerminal_transferMode (s : State) (sta sto : Bool) : (s.afterTerminal sta sto).transferMode = s.transferMode := rfl
@[simp] theorem State.afterTerminal_slots (s : State) (sta sto : Bool) : (s.afterTerminal sta sto).slots = s.slots := rfl
@[simp] theorem State.afterTerminal_phase (s : State) (sta sto : Bool) : (s.afterTerminal sta sto).phase = s.phase := rfl
@[simp] theorem State.afterTerminal_waitK (s : State) (sta sto : Bool) : (s.afterTerminal sta sto).waitK = s.waitK := rfl
@[simp] theorem State.afterTerminal_op (s : State) (sta sto : Bool) : (s.afterTerminal sta sto).op = s.op := rfl
@[simp] theorem State.afterTerminal_ctrlEn (s : State) (sta sto : Bool) : (s.afterTerminal sta sto).ctrlEn = (true) := rfl
@[simp] theorem State.afterTerminal_ctrlIe (s : State) (sta sto : Bool) : (s.afterTerminal sta sto).ctrlIe = (true) := rfl
@[simp] theorem State.afterTerminal_ctrlEa (s : State) (sta sto : Bool) : (s.afterTerminal sta sto).ctrlEa = (true) := rfl
@[simp] theorem State.afterTerminal_ctrlSta (s : State) (sta sto : Bool) : (s.afterTerminal sta sto).ctrlSta = (sta) := rfl
@[simp] theorem State.afterTerminal_irqFlag (s : State) (sta sto : Bool) : (s.afterTerminal sta sto).irqFlag = (false) := rfl
@[simp] theorem State.afterTerminal_stopPending (s : State) (sta sto : Bool) : (s.afterTerminal sta sto).stopPending = (s.stopPending || sto) := rfl
@[simp] theorem State.afterTerminal_data (s : State) (sta sto : Bool) : (s.afterTerminal sta sto).data = s.data := rfl
@[simp] theorem State.afterTerminal_sr (s : State) (sta sto : Bool) : (s.afterTerminal sta sto).sr = s.sr := rfl
@[simp] theorem State.afterTerminal_baud (s : State) (sta sto : Bool) : (s.afterTerminal sta sto).baud = s.baud := rfl
@[simp] theorem State.afterTerminal_addr (s : State) (sta sto : Bool) : (s.afterTerminal sta sto).addr = s.addr := rfl
@[simp] theorem State.afterTerminal_amask (s : State) (sta sto : Bool) : (s.afterTerminal sta sto).amask = s.amask := rfl
@[simp] theorem State.afterTerminal_pullupEn (s : State) (sta sto : Bool) : (s.afterTerminal sta sto).pullupEn = s.pullupEn := rfl
@[simp] theorem State.afterTerminal_mem (s : State) (sta sto : Bool) : (s.afterTerminal sta sto).mem = s.mem := rfl
@[simp] theorem State.afterTerminal_alloc (s : State) (sta sto : Bool) : (s.afterTerminal sta sto).alloc = s.alloc := rfl
@[simp] theorem State.afterTerminal_faults (s : State) (sta sto : Bool) : (s.afterTerminal sta sto).faults = s.faults := rfl
@[simp] theorem State.afterTerminal_refused (s : State) (sta sto : Bool) : (s.afterTerminal sta sto).refused = s.refused := rfl
@[simp] theorem State.afterTerminal_script (s : State) (sta sto : Bool) : (s.afterTerminal sta sto).script = s.script := rfl
@[simp] theorem State.afterTerminal_answers (s : State) (sta sto : Bool) : (s.afterTerminal sta sto).answers = s.answers := rfl
@[simp] theorem State.afterTerminal_freeCount (s : State) (sta sto : Bool) : (s.afterTerminal sta sto).freeCount = s.freeCount := rfl
@[simp] theorem State.afterTerminal_results (s : State) (sta sto : Bool) : (s.afterTerminal sta sto).results = s.results := rfl
@[simp] theorem State.afterTerminal_calls (s : State) (sta sto : Bool) : (s.afterTerminal sta sto).calls = s.calls := rfl
@[simp] theorem State.afterTerminal_portLog (s : State) (sta sto : Bool) : (s.afterTerminal sta sto).portLog = (s.portLog ++ [.write .ctrl (cmd true sta sto)]) := rfl

end Sys2Proof.Machine
end

