-- ==== Sys2Proof/Laws/Ops.lean ====
section
/-! SUPPORT. One lemma per shared operation: what it answers, so that no proof unfolds it. -/

namespace Sys2Proof.Machine

/-! ## Codes and commands -/

@[simp] theorem statusCode_setStatus (sr code : Byte) : statusCode (setStatus sr code) = code &&& 0xF8#8 := by
  simp [statusCode, setStatus, BitVec.and_or_distrib_right, BitVec.and_assoc]

@[simp] theorem setStatus_low (sr code : Byte) : setStatus sr code &&& 0x07#8 = sr &&& 0x07#8 := by
  simp [setStatus, BitVec.and_or_distrib_right, BitVec.and_assoc]

@[simp] theorem statusCode_setPrescaler (sr : Byte) (p : BitVec 2) : statusCode (setPrescaler sr p) = statusCode sr := by
  have h : p.setWidth 8 &&& 0xF8#8 = 0#8 := by revert p; decide
  simp [statusCode, setPrescaler, BitVec.and_or_distrib_right, BitVec.and_assoc, h]

@[simp] theorem cmd_bit0 (a b c : Bool) : (cmd a b c)[0] = true := by revert a b c; decide
@[simp] theorem cmd_bit2 (a b c : Bool) : (cmd a b c)[2] = true := by revert a b c; decide
@[simp] theorem cmd_bit4 (a b c : Bool) : (cmd a b c)[4] = c := by revert a b c; decide
@[simp] theorem cmd_bit5 (a b c : Bool) : (cmd a b c)[5] = b := by revert a b c; decide
@[simp] theorem cmd_bit6 (a b c : Bool) : (cmd a b c)[6] = a := by revert a b c; decide
@[simp] theorem cmd_bit7 (a b c : Bool) : (cmd a b c)[7] = true := by revert a b c; decide

/-! ## The port: every command is its effect, field by field -/

@[simp] theorem State.issue_eq (s : State) (a b c : Bool) : s.issue a b c = s.afterCommand a b c := by
  simp [State.issue, State.writeCtrl, State.ctrlWritten, State.logPort, State.afterCommand]

@[simp] theorem State.issueByte_eq (s : State) (a b c : Bool) (v : Byte) :
    s.issueByte a b c v = s.afterByteCommand a b c v := by
  simp [State.issueByte, State.writeData, State.logPort, State.afterCommand, State.afterByteCommand]

@[simp] theorem State.readPort_data_eq (s : State) : s.readPort .data = s.afterDataRead := rfl

@[simp] theorem State.terminal_eq (s : State) (a : Byte) :
    s.terminal a = s.afterTerminal (actStart a) (actStop a) := by
  simp [State.terminal, State.afterTerminal, terminalRole]

@[simp] theorem State.writeCtrl_arm (s : State) : s.writeCtrl ctrlArm = s.afterArm := by
  simp [State.writeCtrl, State.ctrlWritten, State.logPort, State.afterArm, ctrlArm]

@[simp] theorem State.writeCtrl_disable (s : State) : s.writeCtrl ctrlDisable = s.afterDisable := by
  simp [State.writeCtrl, State.ctrlWritten, State.logPort, State.afterDisable, ctrlDisable]

@[simp] theorem State.doReset_eq (s : State) : s.doReset = s.afterReset := by
  simp [State.doReset, State.afterReset]

@[simp] theorem State.returned_eq (s : State) (v : Byte) : s.returned v = s.afterReturn v := rfl

/-! ## Control -/

theorem State.deliveryEnabled_iff (s : State) : s.deliveryEnabled = true ↔
    s.ctrlEn = true ∧ s.ctrlIe = true ∧ s.irqFlag = false ∧ s.faults = [] := by
  simp [State.deliveryEnabled, and_assoc]

theorem State.faults_of_enabled {s : State} (h : s.deliveryEnabled = true) : s.faults = [] :=
  ((s.deliveryEnabled_iff).1 h).2.2.2

theorem unlessFaulted_clean {s : State} (h : s.faults = []) (k : Out) : unlessFaulted s k = k := by
  simp [unlessFaulted, h]

theorem unlessFaulted_faulted {s : State} {r : FaultReason} {rs : List FaultReason} (h : s.faults = r :: rs) (k : Out) :
    unlessFaulted s k = .fault (.recorded r) := by
  simp [unlessFaulted, h]

/-- A step of the Dispatcher or the Orchestrator that answers a next state was taken in a state with no fault. -/
theorem unlessFaulted_next {s t : State} {k : Out} (h : unlessFaulted s k = .next t) : s.faults = [] ∧ k = .next t := by
  cases hf : s.faults with
  | nil => exact ⟨rfl, by rwa [unlessFaulted_clean hf] at h⟩
  | cons r rs => rw [unlessFaulted_faulted hf] at h; cases h

@[simp] theorem withField_some {α : Type} (x : α) (f : Field) (s : State) (k : α → Out) : withField (some x) f s k = k x := rfl

@[simp] theorem withField_none {α : Type} (f : Field) (s : State) (k : α → Out) :
    withField (none : Option α) f s k = raise (.unwrittenRead f) s := rfl

/-- A read of a field either finds it written or records UnwrittenRead and stops. -/
theorem withField_next {α : Type} {v : Option α} {f : Field} {s t : State} {k : α → Out}
    (h : withField v f s k = .next t) : (∃ x, v = some x ∧ k x = .next t) ∨ (v = none ∧ raise (.unwrittenRead f) s = .next t) := by
  cases v with
  | none => exact .inr ⟨rfl, h⟩
  | some x => exact .inl ⟨x, rfl, h⟩

theorem raise_clean {s : State} (h : s.faults = []) (r : FaultReason) : raise r s = .next { s with faults := [r] } := by
  simp [raise, addFault, h]

theorem raise_next {r : FaultReason} {s t : State} (h : raise r s = .next t) :
    t = { s with faults := addFault r s.faults } := by
  simp only [raise, Host.Outcome.next.injEq] at h
  exact h.symm

theorem memRead_admitted {a : Half} {s : State} (h : s.admitted a = true) (k : Byte → Out) :
    memRead a s k = k (Memory.read s.mem a.toNat) := by simp [memRead, h]

theorem memRead_next {a : Half} {s t : State} {k : Byte → Out} (h : memRead a s k = .next t) :
    s.admitted a = true ∧ k (Memory.read s.mem a.toNat) = .next t := by
  unfold memRead at h
  split at h
  · exact ⟨‹_›, h⟩
  · cases h

theorem memWrite_admitted {a : Half} {v : Byte} {s : State} (h : s.admitted a = true) (k : State → Out) :
    memWrite a v s k = k { s with mem := Memory.write s.mem a.toNat v } := by simp [memWrite, h]

theorem memWrite_next {a : Half} {v : Byte} {s t : State} {k : State → Out} (h : memWrite a v s k = .next t) :
    s.admitted a = true ∧ k { s with mem := Memory.write s.mem a.toNat v } = .next t := by
  unfold memWrite at h
  split at h
  · exact ⟨‹_›, h⟩
  · cases h

/-- An enabled delivery runs the row in the state after the report. -/
theorem deliver_enabled {s : State} (h : s.deliveryEnabled = true) {code : Byte} (hc : code &&& 0xF8#8 = code) (d : Byte)
    (row : State → Out) : deliver code d row s = row (s.afterReport code d) := by
  simp [deliver, unlessFaulted_clean (State.faults_of_enabled h), h, dispatch, State.reported, State.readPort,
    State.logPort, State.afterReport, hc]
  simp [setStatus, hc]

/-- A delivery that answers a next state was enabled. -/
theorem deliver_next {s t : State} {code d : Byte} {row : State → Out} (h : deliver code d row s = .next t) :
    s.deliveryEnabled = true := by
  have h := (unlessFaulted_next h).2
  split at h
  · assumption
  · cases h

theorem accept_ready {s : State} (hp : s.phase = .ready) (hf : s.faults = []) (o : Op) (run : State → Out) :
    accept none o run s = run { s with op := some o } := by
  simp [accept, hp, unlessFaulted_clean hf]

theorem accept_refused {s : State} (hp : s.phase = .ready) (n : RefuseName) (o : Op) (run : State → Out) :
    accept (some n) o run s = refuse n s := by simp [accept, hp]

theorem accept_waits {s : State} (hp : s.phase ≠ .ready) (r : Option RefuseName) (o : Op) (run : State → Out) :
    accept r o run s = .next s := by simp [accept, hp]

/-- An acceptance that answers a next state: the host waited, or the record was refused, or the operation's first step
ran in the state with the record latched. -/
theorem accept_next {r : Option RefuseName} {o : Op} {run : State → Out} {s t : State} (h : accept r o run s = .next t) :
    (s.phase ≠ .ready ∧ t = s) ∨
    (∃ n, r = some n ∧ s.phase = .ready ∧ t = s.afterRefusal n) ∨
    (r = none ∧ s.phase = .ready ∧ s.faults = [] ∧ run { s with op := some o } = .next t) := by
  unfold accept at h
  split at h
  · cases r with
    | none => exact .inr (.inr ⟨rfl, ‹_›, unlessFaulted_next h⟩)
    | some n =>
      refine .inr (.inl ⟨n, rfl, ‹_›, ?_⟩)
      simp only [refuse, Host.Outcome.next.injEq] at h
      exact h.symm
  · simp only [Host.Outcome.next.injEq] at h
    exact .inl ⟨‹_›, h.symm⟩

/-! ## The policy oracle -/

/-- A policy call changes only the answers left, the count of free answers and the record of calls. -/
theorem State.policyCall_frame (s : State) (c : Call) :
    ∃ ans n, (s.policyCall c).2 = { s with answers := ans, freeCount := n, calls := s.calls ++ [c] } := by
  unfold State.policyCall
  split
  · exact ⟨_, _, rfl⟩
  · exact ⟨_, _, rfl⟩

/-- A consultation changes only the answers left, the count of free answers and the record of calls. -/
theorem State.consult_frame (s : State) (c : Call) (d : Byte) :
    ∃ ans n cs, (s.consult c d).2 = { s with answers := ans, freeCount := n, calls := cs } := by
  unfold State.consult
  split
  · obtain ⟨ans, n, h⟩ := s.policyCall_frame c
    exact ⟨ans, n, _, h⟩
  · exact ⟨_, _, _, rfl⟩

theorem State.consult_absent {s : State} {c : Call} (h : s.slots.get c.slot = false) (d : Byte) : s.consult c d = (d, s) := by
  simp [State.consult, h]

theorem State.consult_present {s : State} {c : Call} (h : s.slots.get c.slot = true) (d : Byte) :
    s.consult c d = ((s.policyCall c).1.action, (s.policyCall c).2) := by
  simp [State.consult, h]

/-- The first answer of a slot is the one taken. -/
theorem takeAnswer_first {k : Slot} {before after : List Answer} {a : Answer} (ha : a.slot = k)
    (hb : ∀ b ∈ before, b.slot ≠ k) : takeAnswer k (before ++ a :: after) = some (a, before ++ after) := by
  induction before with
  | nil => simp [takeAnswer, ha]
  | cons b bs ih =>
    have h1 := hb b (by simp)
    simp [takeAnswer, h1, ih (fun x hx => hb x (by simp [hx]))]

theorem takeAnswer_none {k : Slot} {l : List Answer} (h : ∀ b ∈ l, b.slot ≠ k) : takeAnswer k l = none := by
  induction l with
  | nil => rfl
  | cons b bs ih => simp [takeAnswer, h b (by simp), ih (fun x hx => h x (by simp [hx]))]

end Sys2Proof.Machine
end

