-- ==== Sys2Proof/Laws/Checks.lean ====
section
/-! SUPPORT. What a check of the Orchestrator can do, said once. -/

namespace Sys2Proof.Machine

/-- How a started transfer goes on: a posted transmit returns, any other waits for completion. -/
def Started (m t : State) : Prop := t = m.afterReturn 0x04#8 ∨ t = { m with waitK := 0#16, phase := .waitDone }

/-- Everything a check can do. -/
inductive CheckOutcome (s : State) : State → Prop
  /-- The first wait ends in RepeatedStartPending. -/
  | rearmed (o : Op) (hp : s.phase = .waitQ1) (ho : s.op = some o) (hr : s.roleState = .repeatedStartPending) :
      CheckOutcome s { s.armed o with waitK := 0#16, phase := .waitRS }
  /-- The first wait ends in Idle. -/
  | started (o : Op) (t : State) (hp : s.phase = .waitQ1) (ho : s.op = some o) (hr : s.roleState = .idle)
      (ht : Started { (if o.noStart then s.armed o else (s.armed o).afterCommand true true false) with roleState := .busy } t) :
      CheckOutcome s t
  /-- The repeated start is reported. -/
  | reissued (a : Byte) (t : State) (hp : s.phase = .waitRS) (ha : s.targetAddress = some a)
      (ht : Started { s.afterByteCommand true false false a with roleState := .busy } t) : CheckOutcome s t
  /-- The repeated start is reported, but no record is latched: the address is sent, then the read of op faults. -/
  | reissueFault (a : Byte) (hp : s.phase = .waitRS) (ha : s.targetAddress = some a) (ho : s.op = none) :
      CheckOutcome s { s.afterByteCommand true false false a with roleState := .busy, faults := [.unwrittenRead .op] }
  /-- The transfer is complete. -/
  | completed (ev : Byte) (hp : s.phase = .waitDone) (hl : s.lastEvent = some ev) : CheckOutcome s (s.afterReturn ev)
  /-- The stop is done. -/
  | stopped (hp : s.phase = .waitStop) (hs : s.stopPending = false) : CheckOutcome s ({ s with roleState := .idle }.afterReturn 0x01#8)
  /-- One delay is counted. -/
  | counted (b : Half) (hb : s.timeoutBudget = some b) (hk : s.waitK ≠ b) (hp : s.phase ≠ .ready) :
      CheckOutcome s { s with waitK := s.waitK + 1#16 }
  /-- The budget is spent: no recovery. -/
  | timedOut (hb : s.timeoutBudget = some s.waitK) (hp : s.phase = .waitQ1 ∨ s.phase = .waitDone) :
      CheckOutcome s (s.afterReturn 0x03#8)
  /-- The budget is spent: a forced reset. -/
  | timedOutReset (hb : s.timeoutBudget = some s.waitK) (hp : s.phase = .waitRS ∨ s.phase = .waitStop) :
      CheckOutcome s (s.afterReset.afterReturn 0x03#8)
  /-- An unwritten field is read. -/
  | fault (f : Field) : CheckOutcome s { s with faults := [.unwrittenRead f] }

theorem afterStart_next {m t : State} (h : afterStart m = .next t) :
    Started m t ∨ (m.op = none ∧ raise (.unwrittenRead .op) m = .next t) := by
  rcases withField_next h with ⟨o, _, h⟩ | ⟨ho, h⟩
  · split at h
    · exact .inl (.inl (Host.Outcome.next.inj h).symm)
    · exact .inl (.inr (Host.Outcome.next.inj h).symm)
  · exact .inr ⟨ho, h⟩

theorem checkFailed_next {e s t : State} (h : checkFailed e s = .next t) :
    (∃ b, s.timeoutBudget = some b ∧ s.waitK ≠ b ∧ t = { s with waitK := s.waitK + 1#16 }) ∨
    (s.timeoutBudget = some s.waitK ∧ t = e) ∨
    (s.timeoutBudget = none ∧ raise (.unwrittenRead .timeoutBudget) s = .next t) := by
  rcases withField_next h with ⟨b, hb, h⟩ | ⟨hb, h⟩
  · split at h
    · exact .inr (.inl ⟨by simp_all, (Host.Outcome.next.inj h).symm⟩)
    · exact .inl ⟨b, hb, ‹_›, (Host.Outcome.next.inj h).symm⟩
  · exact .inr (.inr ⟨hb, h⟩)

theorem CheckOutcome.raise {s t : State} (hf : s.faults = []) {f : Field} (h : raise (.unwrittenRead f) s = .next t) :
    CheckOutcome s t := by
  rw [raise_clean hf] at h
  rw [← Host.Outcome.next.inj h]
  exact .fault f

theorem check_next {s t : State} (h : check s = .next t) : s.faults = [] ∧ CheckOutcome s t := by
  obtain ⟨hf, h⟩ := unlessFaulted_next h
  refine ⟨hf, ?_⟩
  split at h
  · cases h
  · rename_i hp
    unfold checkQ1 at h
    split at h
    · rename_i hq
      rcases withField_next h with ⟨o, ho, h⟩ | ⟨_, h⟩
      · split at h
        · rw [← Host.Outcome.next.inj h]
          exact .rearmed o hp ho ‹_›
        · have hr : s.roleState = .idle := by
            revert hq
            unfold State.quiescent
            split <;> simp_all
          rw [idleBranch] at h
          have ho' : (s.armed o).op = some o := ho
          simp only [ho', withField_some, State.issue_eq] at h
          rcases afterStart_next h with h | ⟨hn, _⟩
          · exact .started o t hp ho hr h
          · split at hn <;> simp_all [State.armed, State.afterCommand]
      · exact CheckOutcome.raise hf h
    · rcases checkFailed_next h with ⟨b, hb, hk, rfl⟩ | ⟨hb, rfl⟩ | ⟨_, h⟩
      · exact .counted b hb hk (by simp [hp])
      · exact .timedOut hb (.inl hp)
      · exact CheckOutcome.raise hf h
  · rename_i hp
    rcases withField_next h with ⟨ev, hev, h⟩ | ⟨_, h⟩
    · split at h
      · rcases withField_next h with ⟨a, ha, h⟩ | ⟨_, h⟩
        · rw [State.issueByte_eq] at h
          rcases afterStart_next h with h | ⟨hn, h⟩
          · exact .reissued a t hp ha h
          · rw [raise_clean (s := { s.afterByteCommand true false false a with roleState := .busy }) hf] at h
            rw [← Host.Outcome.next.inj h]
            exact .reissueFault a hp ha hn
        · exact CheckOutcome.raise hf h
      · rcases checkFailed_next h with ⟨b, hb, hk, rfl⟩ | ⟨hb, rfl⟩ | ⟨_, h⟩
        · exact .counted b hb hk (by simp [hp])
        · rw [State.doReset_eq]
          exact .timedOutReset hb (.inl hp)
        · exact CheckOutcome.raise hf h
    · exact CheckOutcome.raise hf h
  · rename_i hp
    unfold checkDone at h
    split at h
    · rcases withField_next h with ⟨ev, hev, h⟩ | ⟨_, h⟩
      · rw [← Host.Outcome.next.inj h]
        exact .completed ev hp hev
      · exact CheckOutcome.raise hf h
    · rcases checkFailed_next h with ⟨b, hb, hk, rfl⟩ | ⟨hb, rfl⟩ | ⟨_, h⟩
      · exact .counted b hb hk (by simp [hp])
      · exact .timedOut hb (.inr hp)
      · exact CheckOutcome.raise hf h
  · rename_i hp
    unfold checkStop at h
    split at h
    · rcases checkFailed_next h with ⟨b, hb, hk, rfl⟩ | ⟨hb, rfl⟩ | ⟨_, h⟩
      · exact .counted b hb hk (by simp [hp])
      · rw [State.doReset_eq]
        exact .timedOutReset hb (.inr hp)
      · exact CheckOutcome.raise hf h
    · rw [← Host.Outcome.next.inj h]
      exact .stopped hp (by simp_all)

/-- A check takes no move and marks nothing as refused. -/
theorem CheckOutcome.frame {s t : State} (h : CheckOutcome s t) : t.script = s.script ∧ t.refused = s.refused := by
  cases h
  case started o hp ho hr ht => rcases ht with rfl | rfl <;> (dsimp only; split <;> exact ⟨rfl, rfl⟩)
  case reissued a hp ha ht => rcases ht with rfl | rfl <;> exact ⟨rfl, rfl⟩
  all_goals exact ⟨rfl, rfl⟩

/-- The role a check leaves: its own, Busy at a start or a repeated start, Idle at the end of the stop wait or after a
forced reset (10_state.md R28). -/
theorem CheckOutcome.role {s t : State} (h : CheckOutcome s t) :
    t.roleState = s.roleState ∨
    (t.roleState = .busy ∧ ((s.phase = .waitQ1 ∧ s.roleState = .idle) ∨ s.phase = .waitRS)) ∨
    (t.roleState = .idle ∧ t.phase = .ready ∧ ((s.phase = .waitRS ∧ t.results = s.results ++ [0x03#8]) ∨
      (s.phase = .waitStop ∧ (t.results = s.results ++ [0x01#8] ∨ t.results = s.results ++ [0x03#8])))) := by
  cases h
  case started o hp ho hr ht => exact .inr (.inl ⟨by rcases ht with rfl | rfl <;> rfl, .inl ⟨hp, hr⟩⟩)
  case reissued a hp ha ht => exact .inr (.inl ⟨by rcases ht with rfl | rfl <;> rfl, .inr hp⟩)
  case reissueFault a hp ha ho => exact .inr (.inl ⟨rfl, .inr hp⟩)
  case stopped hp hs => exact .inr (.inr ⟨rfl, rfl, .inr ⟨hp, .inl rfl⟩⟩)
  case timedOutReset hb hp => exact .inr (.inr ⟨rfl, rfl, hp.imp (fun h => ⟨h, rfl⟩) (fun h => ⟨h, .inr rfl⟩)⟩)
  all_goals exact .inl rfl

end Sys2Proof.Machine
end

