-- ==== Sys2Proof/Laws/Decode.lean ====
section
/-! SUPPORT. The byte pieces of the record layout: joining and splitting bytes, and flag bytes; what
each port rejects. -/

namespace Sys2Proof

theorem append_toNat {m n : Nat} (x : BitVec m) (y : BitVec n) : (x ++ y).toNat = x.toNat * 2 ^ n + y.toNat := by
  rw [BitVec.toNat_append, ← Nat.shiftLeft_add_eq_or_of_lt y.isLt, Nat.shiftLeft_eq]

theorem half_toNat (lo hi : Byte) : (half lo hi).toNat = lo.toNat + 256 * hi.toNat := by
  have h : (half lo hi).toNat = (hi ++ lo).toNat := rfl
  rw [h, append_toNat]; omega

theorem word32_toNat (b0 b1 b2 b3 : Byte) :
    (word32 b0 b1 b2 b3).toNat = b0.toNat + 256 * b1.toNat + 65536 * b2.toNat + 16777216 * b3.toNat := by
  have h : (word32 b0 b1 b2 b3).toNat = ((b3 ++ b2) ++ (b1 ++ b0)).toNat := rfl
  rw [h, append_toNat, append_toNat, append_toNat]; omega

/-- The three bytes of a record's len. -/
theorem len24_toNat (l0 l1 l2 : Byte) :
    (l2 ++ half l0 l1).toNat = l0.toNat + 256 * l1.toNat + 65536 * l2.toNat := by
  rw [append_toNat, half_toNat]; omega

theorem byteOf_toNat {n : Nat} (v : BitVec n) (i : Nat) : (v.extractLsb' i 8).toNat = v.toNat / 2 ^ i % 256 := by
  simp [BitVec.extractLsb'_toNat, Nat.shiftRight_eq_div_pow]

/-- Joining the bytes of a half gives it back. -/
@[simp] theorem half_split (v : Half) : half (v.extractLsb' 0 8) (v.extractLsb' 8 8) = v := by
  apply BitVec.eq_of_toNat_eq
  rw [half_toNat, byteOf_toNat, byteOf_toNat]
  have := v.isLt
  omega

/-- Joining the bytes of a 32-bit value gives it back. -/
@[simp] theorem word32_split (v : BitVec 32) :
    word32 (v.extractLsb' 0 8) (v.extractLsb' 8 8) (v.extractLsb' 16 8) (v.extractLsb' 24 8) = v := by
  apply BitVec.eq_of_toNat_eq
  rw [word32_toNat, byteOf_toNat, byteOf_toNat, byteOf_toNat, byteOf_toNat]
  have := v.isLt
  omega

/-- The flags of a flag byte, bit by bit. -/
theorem flagByte_two (a b : Bool) : (flagByte [a, b]).getLsbD 0 = a ∧ (flagByte [a, b]).getLsbD 1 = b := by
  revert a b; decide

theorem flagByte_one (a : Bool) : (flagByte [a]).getLsbD 0 = a := by revert a; decide

theorem flagByte_five (a b c d e : Bool) :
    (flagByte [a, b, c, d, e]).getLsbD 0 = a ∧ (flagByte [a, b, c, d, e]).getLsbD 1 = b ∧
    (flagByte [a, b, c, d, e]).getLsbD 2 = c ∧ (flagByte [a, b, c, d, e]).getLsbD 3 = d ∧
    (flagByte [a, b, c, d, e]).getLsbD 4 = e := by
  revert a b c d e; decide

theorem bitByte_bit (a : Bool) : (bitByte a).getLsbD 0 = a := by revert a; decide

/-- What the event port rejects: too few bytes, or a reserved code. -/
theorem decode_event_reject {bytes : List Byte} {r : Reject} (h : decode .event bytes = .reject r) :
    r = .truncated ∨ ∃ sr data, r = .reservedStatus sr data := by
  match bytes with
  | [] => exact .inl (Decoded.reject.inj h).symm
  | [_] => exact .inl (Decoded.reject.inj h).symm
  | sr :: data :: rest =>
    have h : decodeEvent sr data rest = .reject r := h
    unfold decodeEvent at h
    split at h <;> cases h
    exact .inr ⟨sr, data, rfl⟩

/-- What the host port rejects: too few bytes, or one of the four refusals of 30_encoding.md R96. -/
theorem decode_host_reject {bytes : List Byte} {r : Reject} (h : decode .host bytes = .reject r) :
    r = .truncated ∨ r = .reservedSelector ∨ r = .address ∨ r = .timing ∨ r = .region := by
  match bytes with
  | [] => exact .inl (Decoded.reject.inj h).symm
  | sel :: rest =>
    have h : decodeHost sel rest = .reject r := h
    unfold decodeHost decodeInit decodeInitRaw decodeConfigure decodeTransmit decodeReceive at h
    split at h <;> (try split at h) <;> (try split at h) <;> (try split at h) <;> cases h <;> simp

end Sys2Proof
end

