-- ==== Sys2Proof/Laws/Exec.lean ====
section
/-! SUPPORT. The shape of exec: an event is a delivery of its code, a host operation is an acceptance. -/

namespace Sys2Proof.Machine

/-- An event instruction is the delivery of the code its encoding begins with, and its row; the code's low bits are 0. -/
theorem exec_event {i : Instr} (h : i.port = .event) :
    ∃ code d row, encode i = [code, d] ∧ code &&& 0xF8#8 = code ∧ ∀ s, exec i s = deliver code d row s := by
  cases i with
  | busError d => exact ⟨0x00#8, d, busErrorRow, rfl, rfl, fun _ => rfl⟩
  | start d => exact ⟨0x08#8, d, startRow, rfl, rfl, fun _ => rfl⟩
  | repStart d => exact ⟨0x10#8, d, startRow, rfl, rfl, fun _ => rfl⟩
  | mtSlaAck d => exact ⟨0x18#8, d, sendNextOrComplete, rfl, rfl, fun _ => rfl⟩
  | mtSlaNack d => exact ⟨0x20#8, d, nackPath, rfl, rfl, fun _ => rfl⟩
  | mtDataAck d => exact ⟨0x28#8, d, sendNextOrComplete, rfl, rfl, fun _ => rfl⟩
  | mtDataNack d => exact ⟨0x30#8, d, nackPath, rfl, rfl, fun _ => rfl⟩
  | arbLost d => exact ⟨0x38#8, d, (arbLostRow 0x38#8), rfl, rfl, fun _ => rfl⟩
  | mrSlaAck d => exact ⟨0x40#8, d, issueRxAck, rfl, rfl, fun _ => rfl⟩
  | mrSlaNack d => exact ⟨0x48#8, d, nackPath, rfl, rfl, fun _ => rfl⟩
  | mrDataAck d => exact ⟨0x50#8, d, (storeReceived issueRxAck), rfl, rfl, fun _ => rfl⟩
  | mrDataNack d => exact ⟨0x58#8, d, (storeReceived completion), rfl, rfl, fun _ => rfl⟩
  | srSlaAck d => exact ⟨0x60#8, d, (respAddrRx 0x60#8), rfl, rfl, fun _ => rfl⟩
  | srArbLostSlaAck d => exact ⟨0x68#8, d, (respAddrRx 0x68#8), rfl, rfl, fun _ => rfl⟩
  | srGcallAck d => exact ⟨0x70#8, d, (respAddrRx 0x70#8), rfl, rfl, fun _ => rfl⟩
  | srArbLostGcallAck d => exact ⟨0x78#8, d, (respAddrRx 0x78#8), rfl, rfl, fun _ => rfl⟩
  | srDataAck d => exact ⟨0x80#8, d, (respDataAck 0x80#8), rfl, rfl, fun _ => rfl⟩
  | srDataNack d => exact ⟨0x88#8, d, (respDataNack 0x88#8), rfl, rfl, fun _ => rfl⟩
  | srGcallDataAck d => exact ⟨0x90#8, d, (respDataAck 0x90#8), rfl, rfl, fun _ => rfl⟩
  | srGcallDataNack d => exact ⟨0x98#8, d, (respDataNack 0x98#8), rfl, rfl, fun _ => rfl⟩
  | srStop d => exact ⟨0xA0#8, d, stopReceivedRow, rfl, rfl, fun _ => rfl⟩
  | stSlaAck d => exact ⟨0xA8#8, d, (respAddrTx Config.stAddrLoadsFirstByte 0xA8#8), rfl, rfl, fun _ => rfl⟩
  | stArbLostSlaAck d => exact ⟨0xB0#8, d, (respAddrTx Config.stAddrLoadsFirstByte 0xB0#8), rfl, rfl, fun _ => rfl⟩
  | stDataAck d => exact ⟨0xB8#8, d, byteRequested, rfl, rfl, fun _ => rfl⟩
  | stDataNack d => exact ⟨0xC0#8, d, (lastByte 0xC0#8), rfl, rfl, fun _ => rfl⟩
  | stLastData d => exact ⟨0xC8#8, d, (lastByte 0xC8#8), rfl, rfl, fun _ => rfl⟩
  | initController _ _ _ _ => cases h
  | initControllerRaw _ _ _ _ _ => cases h
  | configureResponder _ _ _ _ _ _ _ _ => cases h
  | reset => cases h
  | shutDown => cases h
  | stop => cases h
  | transmit _ _ _ _ _ => cases h
  | receive _ _ _ _ => cases h

/-- A host operation is an acceptance: of a record that is refused only where the instruction is ill formed. -/
theorem exec_host {i : Instr} (h : i.port = .host) :
    ∃ ref o run, (i.wf = true → ref = none) ∧ ∀ s, exec i s = accept ref o run s := by
  cases i with
  | initController fd t hc hn => exact ⟨none, (Op.plain 1#4), (initBody (Config.timingFn fd).1 (Config.timingFn fd).2 t hc hn), fun _ => rfl, fun _ => rfl⟩
  | initControllerRaw b p t hc hn => exact ⟨none, (Op.plain 2#4), (initBody b p t hc hn), fun _ => rfl, fun _ => rfl⟩
  | configureResponder a g m h2 h3 h4 h5 h6 => exact ⟨none, { Op.plain 3#4 with address := a }, (configureBody a g m h2 h3 h4 h5 h6), fun _ => rfl, fun _ => rfl⟩
  | reset => exact ⟨none, (Op.plain 4#4), (fun t => .next (t.doReset.returned resultOk)), fun _ => rfl, fun _ => rfl⟩
  | shutDown => exact ⟨none, (Op.plain 5#4), shutDownBody, fun _ => rfl, fun _ => rfl⟩
  | stop => exact ⟨none, (Op.plain 6#4), stopStart, fun _ => rfl, fun _ => rfl⟩
  | transmit a b l ns po => exact ⟨(regionRefusal b l), ⟨7#4, false, a, b, l, ns, po⟩, transferStart, fun hw => by simp only [Instr.wf] at hw; simp [regionRefusal, hw], fun _ => rfl⟩
  | receive a b l ns => exact ⟨(regionRefusal b l), ⟨8#4, true, a, b, l, ns, false⟩, transferStart, fun hw => by simp only [Instr.wf] at hw; simp [regionRefusal, hw], fun _ => rfl⟩
  | busError _ => cases h
  | start _ => cases h
  | repStart _ => cases h
  | mtSlaAck _ => cases h
  | mtSlaNack _ => cases h
  | mtDataAck _ => cases h
  | mtDataNack _ => cases h
  | arbLost _ => cases h
  | mrSlaAck _ => cases h
  | mrSlaNack _ => cases h
  | mrDataAck _ => cases h
  | mrDataNack _ => cases h
  | srSlaAck _ => cases h
  | srArbLostSlaAck _ => cases h
  | srGcallAck _ => cases h
  | srArbLostGcallAck _ => cases h
  | srDataAck _ => cases h
  | srDataNack _ => cases h
  | srGcallDataAck _ => cases h
  | srGcallDataNack _ => cases h
  | srStop _ => cases h
  | stSlaAck _ => cases h
  | stArbLostSlaAck _ => cases h
  | stDataAck _ => cases h
  | stDataNack _ => cases h
  | stLastData _ => cases h

end Sys2Proof.Machine
end

