-- ==== Sys2Proof/Laws/Hosts.lean ====
section
/-! SUPPORT. What a host operation can do, said once. -/

namespace Sys2Proof.Machine

/-- Where an accepted operation leaves phase, wait_k and role_state. -/
def HostEnd (o : Op) (s t : State) : Prop :=
  (t.phase = .ready ∧ (t.roleState = s.roleState ∨ t.roleState = .idle ∨ t.roleState = .uninitialized)) ∨
  (t.phase = .waitQ1 ∧ t.waitK = 0#16 ∧ t.timeoutBudget = s.timeoutBudget ∧ t.roleState = s.roleState ∧
    s.roleState ≠ .uninitialized ∧ (o.selector = 7#4 ∨ o.selector = 8#4)) ∨
  (t.phase = .waitStop ∧ t.waitK = 0#16 ∧ t.timeoutBudget = s.timeoutBudget ∧ t.roleState = .stopping)

/-- An accepted operation's effect: its record is latched, it ends in one of three ways, and it leaves the transfer's
fields, memory, last_event, SR[7:3], the faults, the refusal mark and the script alone. -/
def HostEffect (s t : State) : Prop :=
  ∃ o, o.buf.toNat + o.len.toNat ≤ 2 ^ 16 ∧ t.op = some o ∧ HostEnd o s t ∧
    t.bufferBase = s.bufferBase ∧ t.length = s.length ∧ t.cursor = s.cursor ∧ t.targetAddress = s.targetAddress ∧
    t.lastEvent = s.lastEvent ∧ statusCode t.sr = statusCode s.sr ∧ t.mem = s.mem ∧ t.alloc = s.alloc ∧
    t.faults = s.faults ∧ t.refused = s.refused ∧ t.script = s.script ∧ (t.irqFlag = false ∨ t.irqFlag = s.irqFlag)

theorem regionRefusal_none {buf len : Half} (h : regionRefusal buf len = none) : buf.toNat + len.toNat ≤ 2 ^ 16 := by
  unfold regionRefusal at h
  split at h
  · rename_i hr
    simpa [regionOk] using hr
  · cases h

theorem initBody_effect {s t : State} {o : Op} {b : Byte} {p : BitVec 2} {tm : Half} {hc hn : Bool}
    (ho : o.buf.toNat + o.len.toNat ≤ 2 ^ 16) (h : initBody b p tm hc hn { s with op := some o } = .next t) : HostEffect s t := by
  simp only [initBody, State.writeCtrl_arm, State.writeBaud, State.writePrescaler, State.logPort, State.afterArm,
    State.returned, Host.Outcome.next.injEq] at h
  subst h
  exact ⟨o, ho, rfl, .inl ⟨rfl, .inr (.inl rfl)⟩, rfl, rfl, rfl, rfl, rfl, statusCode_setPrescaler s.sr p, rfl, rfl, rfl, rfl,
    rfl, .inl rfl⟩

theorem configureBody_effect {s t : State} {o : Op} {a m : BitVec 7} {g h2 h3 h4 h5 h6 : Bool}
    (ho : o.buf.toNat + o.len.toNat ≤ 2 ^ 16) (h : configureBody a g m h2 h3 h4 h5 h6 { s with op := some o } = .next t) :
    HostEffect s t := by
  simp only [configureBody, State.writeCtrl_arm, State.writeAddr, State.writeAmask, State.logPort, State.afterArm,
    State.returned, Host.Outcome.next.injEq] at h
  subst h
  exact ⟨o, ho, rfl, .inl ⟨rfl, .inl rfl⟩, rfl, rfl, rfl, rfl, rfl, rfl, rfl, rfl, rfl, rfl, rfl, .inl rfl⟩

theorem reset_effect {s t : State} {o : Op} (ho : o.buf.toNat + o.len.toNat ≤ 2 ^ 16)
    (h : Host.Outcome.next (({ s with op := some o } : State).doReset.returned resultOk) = (.next t : Out)) : HostEffect s t := by
  simp only [State.doReset_eq, State.afterReset, State.afterArm, State.afterDisable, State.returned,
    Host.Outcome.next.injEq] at h
  subst h
  exact ⟨o, ho, rfl, .inl ⟨rfl, .inr (.inl rfl)⟩, rfl, rfl, rfl, rfl, rfl, rfl, rfl, rfl, rfl, rfl, rfl, .inl rfl⟩

theorem shutDownBody_effect {s t : State} {o : Op} (ho : o.buf.toNat + o.len.toNat ≤ 2 ^ 16)
    (h : shutDownBody { s with op := some o } = .next t) : HostEffect s t := by
  simp only [shutDownBody, State.writeCtrl_disable, State.afterDisable, State.returned, Host.Outcome.next.injEq] at h
  subst h
  exact ⟨o, ho, rfl, .inl ⟨rfl, .inr (.inr rfl)⟩, rfl, rfl, rfl, rfl, rfl, rfl, rfl, rfl, rfl, rfl, rfl, .inl rfl⟩

theorem stopStart_effect {s t : State} {o : Op} (ho : o.buf.toNat + o.len.toNat ≤ 2 ^ 16)
    (h : stopStart { s with op := some o } = .next t) : HostEffect s t := by
  simp only [stopStart, State.issue_eq, State.afterCommand, State.startWait, Host.Outcome.next.injEq] at h
  subst h
  exact ⟨o, ho, rfl, .inr (.inr ⟨rfl, rfl, rfl, rfl⟩), rfl, rfl, rfl, rfl, rfl, rfl, rfl, rfl, rfl, rfl, rfl, .inl rfl⟩

theorem transferStart_effect {s t : State} {o : Op} (ho : o.buf.toNat + o.len.toNat ≤ 2 ^ 16)
    (hs : o.selector = 7#4 ∨ o.selector = 8#4) (h : transferStart { s with op := some o } = .next t) : HostEffect s t := by
  unfold transferStart at h
  split at h
  · rw [← Host.Outcome.next.inj h]
    exact ⟨o, ho, rfl, .inl ⟨rfl, .inl rfl⟩, rfl, rfl, rfl, rfl, rfl, rfl, rfl, rfl, rfl, rfl, rfl, .inr rfl⟩
  · rename_i hr
    rw [← Host.Outcome.next.inj h]
    exact ⟨o, ho, rfl, .inr (.inl ⟨rfl, rfl, rfl, rfl, hr, hs⟩), rfl, rfl, rfl, rfl, rfl, rfl, rfl, rfl, rfl, rfl, rfl, .inr rfl⟩

/-- Everything a host operation can do: wait for phase Ready, be refused for its region, or run. -/
theorem exec_host_next {i : Instr} {s t : State} (hp : i.port = .host) (h : exec i s = .next t) :
    (s.phase ≠ .ready ∧ t = s) ∨ (i.wf = false ∧ s.phase = .ready ∧ t = s.afterRefusal .region) ∨
    (s.phase = .ready ∧ s.faults = [] ∧ HostEffect s t) := by
  have plain : ∀ {o : Op} {run : State → Out}, accept none o run s = .next t →
      (run { s with op := some o } = .next t → HostEffect s t) →
      (s.phase ≠ .ready ∧ t = s) ∨ (s.phase = .ready ∧ s.faults = [] ∧ HostEffect s t) := by
    intro o run h hr
    rcases accept_next h with h | ⟨n, hn, _⟩ | ⟨_, h1, h2, h3⟩
    · exact .inl h
    · cases hn
    · exact .inr ⟨h1, h2, hr h3⟩
  have zero : ∀ k : BitVec 4, (Op.plain k).buf.toNat + (Op.plain k).len.toNat ≤ 2 ^ 16 := fun _ => by simp [Op.plain]
  cases i with
  | initController fd tm hc hn =>
    change accept none (Op.plain 1#4) (initBody (Config.timingFn fd).1 (Config.timingFn fd).2 tm hc hn) s = .next t at h
    exact (plain h (fun h => initBody_effect (zero 1#4) h)).imp id .inr
  | initControllerRaw b p tm hc hn =>
    change accept none (Op.plain 2#4) (initBody b p tm hc hn) s = .next t at h
    exact (plain h (fun h => initBody_effect (zero 2#4) h)).imp id .inr
  | configureResponder a g m h2 h3 h4 h5 h6 =>
    change accept none { Op.plain 3#4 with address := a } (configureBody a g m h2 h3 h4 h5 h6) s = .next t at h
    exact (plain h (fun h => configureBody_effect (by simp [Op.plain]) h)).imp id .inr
  | reset =>
    change accept none (Op.plain 4#4) (fun u => .next (u.doReset.returned resultOk)) s = .next t at h
    exact (plain h (fun h => reset_effect (zero 4#4) h)).imp id .inr
  | shutDown =>
    change accept none (Op.plain 5#4) (shutDownBody) s = .next t at h
    exact (plain h (fun h => shutDownBody_effect (zero 5#4) h)).imp id .inr
  | stop =>
    change accept none (Op.plain 6#4) (stopStart) s = .next t at h
    exact (plain h (fun h => stopStart_effect (zero 6#4) h)).imp id .inr
  | transmit a b l ns po =>
    rcases accept_next h with h | ⟨n, hn, h1, h2⟩ | ⟨hr, h1, h2, h3⟩
    · exact .inl h
    · unfold regionRefusal at hn
      split at hn
      · cases hn
      · rename_i hw
        cases hn
        exact .inr (.inl ⟨by simpa [Instr.wf] using hw, h1, h2⟩)
    · exact .inr (.inr ⟨h1, h2, transferStart_effect (regionRefusal_none hr) (.inl rfl) h3⟩)
  | receive a b l ns =>
    rcases accept_next h with h | ⟨n, hn, h1, h2⟩ | ⟨hr, h1, h2, h3⟩
    · exact .inl h
    · unfold regionRefusal at hn
      split at hn
      · cases hn
      · rename_i hw
        cases hn
        exact .inr (.inl ⟨by simpa [Instr.wf] using hw, h1, h2⟩)
    · exact .inr (.inr ⟨h1, h2, transferStart_effect (regionRefusal_none hr) (.inr rfl) h3⟩)
  | busError _ => cases hp
  | start _ => cases hp
  | repStart _ => cases hp
  | mtSlaAck _ => cases hp
  | mtSlaNack _ => cases hp
  | mtDataAck _ => cases hp
  | mtDataNack _ => cases hp
  | arbLost _ => cases hp
  | mrSlaAck _ => cases hp
  | mrSlaNack _ => cases hp
  | mrDataAck _ => cases hp
  | mrDataNack _ => cases hp
  | srSlaAck _ => cases hp
  | srArbLostSlaAck _ => cases hp
  | srGcallAck _ => cases hp
  | srArbLostGcallAck _ => cases hp
  | srDataAck _ => cases hp
  | srDataNack _ => cases hp
  | srGcallDataAck _ => cases hp
  | srGcallDataNack _ => cases hp
  | srStop _ => cases hp
  | stSlaAck _ => cases hp
  | stArbLostSlaAck _ => cases hp
  | stDataAck _ => cases hp
  | stDataNack _ => cases hp
  | stLastData _ => cases hp

/-- The role a host operation leaves (10_state.md R28). -/
theorem exec_host_role {i : Instr} {s t : State} (hp : i.port = .host) (h : exec i s = .next t) :
    t.roleState = s.roleState ∨ (t.roleState = .stopping ∧ i = .stop) ∨ (t.roleState = .uninitialized ∧ i = .shutDown) ∨
    (t.roleState = .idle ∧ (i = .reset ∨ (∃ fd tm hc hn, i = .initController fd tm hc hn) ∨
      ∃ b p tm hc hn, i = .initControllerRaw b p tm hc hn)) := by
  have ran : ∀ {r : Option RefuseName} {o : Op} {run : State → Out}, accept r o run s = .next t →
      t.roleState = s.roleState ∨ run { s with op := some o } = .next t := by
    intro r o run h
    rcases accept_next h with ⟨_, rfl⟩ | ⟨n, _, _, rfl⟩ | ⟨_, _, _, h⟩
    · exact .inl rfl
    · exact .inl rfl
    · exact .inr h
  have transfer : ∀ {o : Op}, transferStart { s with op := some o } = .next t → t.roleState = s.roleState := by
    intro o h
    unfold transferStart at h
    split at h <;> rw [← Host.Outcome.next.inj h] <;> rfl
  cases i with
  | initController fd tm hc hn =>
    dsimp only [exec, execInitController] at h
    refine (ran h).imp id fun h => ?_
    rw [← Host.Outcome.next.inj h]
    exact .inr (.inr ⟨rfl, .inr (.inl ⟨fd, tm, hc, hn, rfl⟩)⟩)
  | initControllerRaw b p tm hc hn =>
    dsimp only [exec, execInitControllerRaw] at h
    refine (ran h).imp id fun h => ?_
    rw [← Host.Outcome.next.inj h]
    exact .inr (.inr ⟨rfl, .inr (.inr ⟨b, p, tm, hc, hn, rfl⟩)⟩)
  | configureResponder a g m h2 h3 h4 h5 h6 =>
    dsimp only [exec, execConfigureResponder] at h
    refine .inl ((ran h).elim id fun h => ?_)
    rw [← Host.Outcome.next.inj h]
    rfl
  | reset =>
    dsimp only [exec, execReset] at h
    refine (ran h).imp id fun h => ?_
    rw [← Host.Outcome.next.inj h]
    exact .inr (.inr ⟨rfl, .inl rfl⟩)
  | shutDown =>
    dsimp only [exec, execShutDown] at h
    refine (ran h).imp id fun h => ?_
    rw [← Host.Outcome.next.inj h]
    exact .inr (.inl ⟨rfl, rfl⟩)
  | stop =>
    dsimp only [exec, execStop] at h
    refine (ran h).imp id fun h => ?_
    rw [← Host.Outcome.next.inj h]
    exact .inl ⟨rfl, rfl⟩
  | transmit a b l ns po => exact .inl ((ran h).elim id transfer)
  | receive a b l ns => exact .inl ((ran h).elim id transfer)
  | busError _ => cases hp
  | start _ => cases hp
  | repStart _ => cases hp
  | mtSlaAck _ => cases hp
  | mtSlaNack _ => cases hp
  | mtDataAck _ => cases hp
  | mtDataNack _ => cases hp
  | arbLost _ => cases hp
  | mrSlaAck _ => cases hp
  | mrSlaNack _ => cases hp
  | mrDataAck _ => cases hp
  | mrDataNack _ => cases hp
  | srSlaAck _ => cases hp
  | srArbLostSlaAck _ => cases hp
  | srGcallAck _ => cases hp
  | srArbLostGcallAck _ => cases hp
  | srDataAck _ => cases hp
  | srDataNack _ => cases hp
  | srGcallDataAck _ => cases hp
  | srGcallDataNack _ => cases hp
  | srStop _ => cases hp
  | stSlaAck _ => cases hp
  | stArbLostSlaAck _ => cases hp
  | stDataAck _ => cases hp
  | stDataNack _ => cases hp
  | stLastData _ => cases hp

end Sys2Proof.Machine
end

