-- ==== Sys2Proof/Laws/PerInstr.lean ====
section
/-! SUPPORT. One family of laws over all instructions: the opcode byte an instruction's encoding begins with. -/

namespace Sys2Proof.Laws.Opcode

/-- The first byte is a valid opcode of its port: for an event a status code of 30_encoding.md R81 (bits [2:0] zero, below
0xD0) with the DATA byte alone after it; for a host operation a selector 1 to 8 of R95 in a byte whose high bits are zero. -/
def Statement (i : Instr) : Prop :=
  match encode i with
  | [] => False
  | op :: rest =>
    match i.port with
    | .event => op &&& 0x07#8 = 0#8 ∧ op.toNat < 0xD0 ∧ rest.length = 1
    | .host => 1 ≤ op.toNat ∧ op.toNat ≤ 8 ∧ rest.length ≤ 7

theorem busError (data : Byte) : Statement (.busError data) := ⟨by decide, by decide, rfl⟩
theorem start (data : Byte) : Statement (.start data) := ⟨by decide, by decide, rfl⟩
theorem repStart (data : Byte) : Statement (.repStart data) := ⟨by decide, by decide, rfl⟩
theorem mtSlaAck (data : Byte) : Statement (.mtSlaAck data) := ⟨by decide, by decide, rfl⟩
theorem mtSlaNack (data : Byte) : Statement (.mtSlaNack data) := ⟨by decide, by decide, rfl⟩
theorem mtDataAck (data : Byte) : Statement (.mtDataAck data) := ⟨by decide, by decide, rfl⟩
theorem mtDataNack (data : Byte) : Statement (.mtDataNack data) := ⟨by decide, by decide, rfl⟩
theorem arbLost (data : Byte) : Statement (.arbLost data) := ⟨by decide, by decide, rfl⟩
theorem mrSlaAck (data : Byte) : Statement (.mrSlaAck data) := ⟨by decide, by decide, rfl⟩
theorem mrSlaNack (data : Byte) : Statement (.mrSlaNack data) := ⟨by decide, by decide, rfl⟩
theorem mrDataAck (data : Byte) : Statement (.mrDataAck data) := ⟨by decide, by decide, rfl⟩
theorem mrDataNack (data : Byte) : Statement (.mrDataNack data) := ⟨by decide, by decide, rfl⟩
theorem srSlaAck (data : Byte) : Statement (.srSlaAck data) := ⟨by decide, by decide, rfl⟩
theorem srArbLostSlaAck (data : Byte) : Statement (.srArbLostSlaAck data) := ⟨by decide, by decide, rfl⟩
theorem srGcallAck (data : Byte) : Statement (.srGcallAck data) := ⟨by decide, by decide, rfl⟩
theorem srArbLostGcallAck (data : Byte) : Statement (.srArbLostGcallAck data) := ⟨by decide, by decide, rfl⟩
theorem srDataAck (data : Byte) : Statement (.srDataAck data) := ⟨by decide, by decide, rfl⟩
theorem srDataNack (data : Byte) : Statement (.srDataNack data) := ⟨by decide, by decide, rfl⟩
theorem srGcallDataAck (data : Byte) : Statement (.srGcallDataAck data) := ⟨by decide, by decide, rfl⟩
theorem srGcallDataNack (data : Byte) : Statement (.srGcallDataNack data) := ⟨by decide, by decide, rfl⟩
theorem srStop (data : Byte) : Statement (.srStop data) := ⟨by decide, by decide, rfl⟩
theorem stSlaAck (data : Byte) : Statement (.stSlaAck data) := ⟨by decide, by decide, rfl⟩
theorem stArbLostSlaAck (data : Byte) : Statement (.stArbLostSlaAck data) := ⟨by decide, by decide, rfl⟩
theorem stDataAck (data : Byte) : Statement (.stDataAck data) := ⟨by decide, by decide, rfl⟩
theorem stDataNack (data : Byte) : Statement (.stDataNack data) := ⟨by decide, by decide, rfl⟩
theorem stLastData (data : Byte) : Statement (.stLastData data) := ⟨by decide, by decide, rfl⟩
theorem initController (fd : BitVec 32) (timeout : Half) (hc hn : Bool) : Statement (.initController fd timeout hc hn) := ⟨by decide, by decide, Nat.le_of_ble_eq_true rfl⟩
theorem initControllerRaw (baud : Byte) (prescaler : BitVec 2) (timeout : Half) (hc hn : Bool) : Statement (.initControllerRaw baud prescaler timeout hc hn) := ⟨by decide, by decide, Nat.le_of_ble_eq_true rfl⟩
theorem configureResponder (address : BitVec 7) (gc : Bool) (mask : BitVec 7) (h2 h3 h4 h5 h6 : Bool) : Statement (.configureResponder address gc mask h2 h3 h4 h5 h6) := ⟨by decide, by decide, Nat.le_of_ble_eq_true rfl⟩
theorem reset : Statement (.reset) := ⟨by decide, by decide, Nat.le_of_ble_eq_true rfl⟩
theorem shutDown : Statement (.shutDown) := ⟨by decide, by decide, Nat.le_of_ble_eq_true rfl⟩
theorem stop : Statement (.stop) := ⟨by decide, by decide, Nat.le_of_ble_eq_true rfl⟩
theorem transmit (address : BitVec 7) (buf len : Half) (noStart posted : Bool) : Statement (.transmit address buf len noStart posted) := ⟨by decide, by decide, Nat.le_of_ble_eq_true rfl⟩
theorem receive (address : BitVec 7) (buf len : Half) (noStart : Bool) : Statement (.receive address buf len noStart) := ⟨by decide, by decide, Nat.le_of_ble_eq_true rfl⟩

end Sys2Proof.Laws.Opcode
end

