-- ==== Sys2Proof/Laws/Rows.lean ====
section
/-! SUPPORT. What a row of the event table can do, said once: the state it has reached before its command, and the four ways
it ends. -/

namespace Sys2Proof.Machine

/-- What a row may have done since r before it ends: read DATA, consulted a callback, set the mode, advanced the cursor,
stored a byte. -/
def Between (r m : State) : Prop :=
  ∃ rd mode ans n cs cur mem,
    (rd = [] ∨ rd = [PortOp.read .data]) ∧
    (mode = r.transferMode ∨ mode = .responderReceive ∨ mode = .responderTransmit) ∧
    (cur = r.cursor ∨ ∃ c l, r.cursor = some c ∧ r.length = some l ∧ c < l ∧ cur = some (c + 1#16)) ∧
    (mem = r.mem ∨ ∃ base c, r.bufferBase = some base ∧ r.cursor = some c ∧ mem = Memory.write r.mem (bufAddr base c).toNat r.data) ∧
    m = { r with portLog := r.portLog ++ rd, transferMode := mode, answers := ans, freeCount := n, calls := cs, cursor := cur, mem := mem }

/-- The event dispatched is one of these codes. -/
def ByCode (r : State) (codes : List Byte) : Prop := ∃ c ∈ codes, r.lastEvent = some c

/-- The rows that end in Terminal(A) or ArbLost(A). -/
def terminalCodes : List Byte := [0x18#8, 0x20#8, 0x28#8, 0x30#8, 0x38#8, 0x48#8, 0x58#8]

/-- The role a row leaves, by its code. -/
def RowRole (r : State) (role : RoleState) : Prop :=
  role = r.roleState ∨ (role = .idle ∧ (ByCode r terminalCodes ∨ r.lastEvent = some 0x00#8)) ∨
    (role = .repeatedStartPending ∧ ByCode r terminalCodes)

/-- The fault a row records. -/
def RowFault (r : State) (f : FaultReason) : Prop :=
  (f = .missingByteRequested ∧ r.slots.onByteRequested = false ∧ ByCode r [0xA8#8, 0xB0#8, 0xB8#8]) ∨
  (f = .unwrittenRead .targetAddress ∧ r.targetAddress = none) ∨ (f = .unwrittenRead .cursor ∧ r.cursor = none) ∨
  (f = .unwrittenRead .length ∧ r.length = none) ∨ (f = .unwrittenRead .bufferBase ∧ r.bufferBase = none) ∨
  (f = .unwrittenRead .lastEvent ∧ r.lastEvent = none)

/-- How a row begun at r ends from m: one command (and the role it leaves), one command with its byte, or a fault and no
command. -/
def Ended (r m t : State) : Prop :=
  (∃ ack sta sto role, RowRole r role ∧ t = { m.afterCommand ack sta sto with roleState := role }) ∨
  (∃ ack sta v, t = m.afterByteCommand ack sta false v) ∨
  (∃ reason, RowFault r reason ∧ t = { m with faults := [reason] })

/-- A row's whole outcome; the START rows alone may hold the event instead, issuing nothing. -/
def RowOutcome (r t : State) : Prop := ∃ m, Between r m ∧ Ended r m t

theorem Between.refl (r : State) : Between r r :=
  ⟨[], _, r.answers, r.freeCount, r.calls, _, _, .inl rfl, .inl rfl, .inl rfl, .inl rfl, by simp⟩

theorem Between.read (r : State) : Between r (r.readPort .data) :=
  ⟨_, _, _, _, _, _, _, .inr rfl, .inl rfl, .inl rfl, .inl rfl, rfl⟩

theorem Between.readRx (r : State) : Between r ({ r with transferMode := .responderReceive }.readPort .data) :=
  ⟨_, _, _, _, _, _, _, .inr rfl, .inr (.inl rfl), .inl rfl, .inl rfl, rfl⟩

theorem Between.readTx (r : State) : Between r ({ r with transferMode := .responderTransmit }.readPort .data) :=
  ⟨_, _, _, _, _, _, _, .inr rfl, .inr (.inr rfl), .inl rfl, .inl rfl, rfl⟩

theorem Between.policyCall {r m : State} (h : Between r m) (c : Call) : Between r (m.policyCall c).2 := by
  obtain ⟨rd, mode, ans, n, cs, cur, mem, h1, h2, h3, h4, rfl⟩ := h
  obtain ⟨ans', n', e⟩ := State.policyCall_frame { r with portLog := r.portLog ++ rd, transferMode := mode, answers := ans, freeCount := n, calls := cs, cursor := cur, mem := mem } c
  exact ⟨rd, mode, ans', n', _, cur, mem, h1, h2, h3, h4, e⟩

theorem Between.consult {r m : State} (h : Between r m) (c : Call) (d : Byte) : Between r (m.consult c d).2 := by
  unfold State.consult
  split
  · exact h.policyCall c
  · exact h

theorem Between.advance {r m : State} (h : Between r m) (hc : m.cursor = r.cursor) {c l : Half} (h1 : m.cursor = some c)
    (h2 : m.length = some l) (hl : c < l) : Between r { m with cursor := some (c + 1#16) } := by
  obtain ⟨rd, mode, ans, n, cs, cur, mem, g1, g2, -, g4, rfl⟩ := h
  exact ⟨rd, mode, ans, n, cs, _, mem, g1, g2, .inr ⟨c, l, hc.symm.trans h1, h2, hl, rfl⟩, g4, rfl⟩

theorem Between.store {r m : State} (h : Between r m) (hc : m.cursor = r.cursor) (hm : m.mem = r.mem) {c l : Half}
    (h1 : m.cursor = some c) (h2 : m.length = some l) (hl : c < l) {base : Half} (h3 : m.bufferBase = some base) :
    Between r { m with mem := Memory.write m.mem (bufAddr base c).toNat m.data, cursor := some (c + 1#16) } := by
  obtain ⟨rd, mode, ans, n, cs, cur, mem, g1, g2, -, -, rfl⟩ := h
  exact ⟨rd, mode, ans, n, cs, _, _, g1, g2, .inr ⟨c, l, hc.symm.trans h1, h2, hl, rfl⟩,
    .inr ⟨base, c, h3, hc.symm.trans h1, congrArg (fun x => Memory.write x _ _) hm⟩, rfl⟩

/-- The fields a row never writes before its command. -/
theorem Between.fields {r m : State} (h : Between r m) :
    m.roleState = r.roleState ∧ m.faults = r.faults ∧ m.length = r.length ∧ m.bufferBase = r.bufferBase ∧
    m.lastEvent = r.lastEvent ∧ m.data = r.data ∧ m.slots = r.slots := by
  obtain ⟨rd, mode, ans, n, cs, cur, mem, -, -, -, -, rfl⟩ := h
  exact ⟨rfl, rfl, rfl, rfl, rfl, rfl, rfl⟩

/-- A row never unwrites the cursor. -/
theorem Between.cursor_none {r m : State} (h : Between r m) (hm : m.cursor = none) : r.cursor = none := by
  obtain ⟨rd, mode, ans, n, cs, cur, mem, -, -, hc, -, rfl⟩ := h
  have hm : cur = none := hm
  rcases hc with rfl | ⟨c, l, -, -, -, rfl⟩
  · exact hm
  · cases hm

/-! ### The fields a row reads unwritten -/

theorem Between.fault_cursor {r m : State} (h : Between r m) (hm : m.cursor = none) : RowFault r (.unwrittenRead .cursor) :=
  .inr (.inr (.inl ⟨rfl, h.cursor_none hm⟩))

theorem Between.fault_length {r m : State} (h : Between r m) (hm : m.length = none) : RowFault r (.unwrittenRead .length) :=
  .inr (.inr (.inr (.inl ⟨rfl, h.fields.2.2.1 ▸ hm⟩)))

theorem Between.fault_base {r m : State} (h : Between r m) (hm : m.bufferBase = none) :
    RowFault r (.unwrittenRead .bufferBase) :=
  .inr (.inr (.inr (.inr (.inl ⟨rfl, h.fields.2.2.2.1 ▸ hm⟩))))

theorem Between.fault_event {r m : State} (h : Between r m) (hm : m.lastEvent = none) :
    RowFault r (.unwrittenRead .lastEvent) :=
  .inr (.inr (.inr (.inr (.inr ⟨rfl, h.fields.2.2.2.2.1 ▸ hm⟩))))

theorem State.consult_cursor (s : State) (c : Call) (d : Byte) : (s.consult c d).2.cursor = s.cursor := by
  obtain ⟨_, _, _, e⟩ := s.consult_frame c d
  rw [e]

theorem Ended.raise {r m t : State} (hb : Between r m) (hf : r.faults = []) {f : FaultReason} (hr : RowFault r f)
    (h : raise f m = .next t) : RowOutcome r t :=
  ⟨m, hb, .inr (.inr ⟨f, hr, by
    rw [raise_clean (hb.fields.2.1.trans hf)] at h
    exact (Host.Outcome.next.inj h).symm⟩)⟩

theorem Ended.command {r m t : State} (hb : Between r m) {a b c : Bool} (h : Host.Outcome.next (m.issue a b c) = (.next t : Out)) :
    RowOutcome r t :=
  ⟨m, hb, .inl ⟨a, b, c, m.roleState, .inl hb.fields.1, by
    have := (Host.Outcome.next.inj h).symm
    rw [State.issue_eq] at this
    exact this⟩⟩

theorem Ended.byte {r m t : State} (hb : Between r m) {a b : Bool} {v : Byte}
    (h : Host.Outcome.next (m.issueByte a b false v) = (.next t : Out)) : RowOutcome r t :=
  ⟨m, hb, .inr (.inl ⟨a, b, v, by rw [← State.issueByte_eq]; exact (Host.Outcome.next.inj h).symm⟩)⟩

theorem Ended.terminal {r m t : State} (hb : Between r m) (hl : ByCode r terminalCodes) {a : Byte}
    (h : Host.Outcome.next (m.terminal a) = (.next t : Out)) : RowOutcome r t := by
  refine ⟨m, hb, .inl ⟨true, actStart a, actStop a, terminalRole a m.roleState, ?_, ?_⟩⟩
  · unfold terminalRole
    split
    · exact .inr (.inr ⟨rfl, hl⟩)
    · split
      · exact .inr (.inl ⟨rfl, .inl hl⟩)
      · exact .inl hb.fields.1
  · rw [← State.issue_eq]
    exact (Host.Outcome.next.inj h).symm

/-! ## One lemma per row -/

theorem completion_outcome {r m t : State} (hb : Between r m) (hf : r.faults = []) (hl : ByCode r terminalCodes)
    (h : completion m = .next t) : RowOutcome r t := by
  rcases withField_next h with ⟨ev, _, h⟩ | ⟨hn, h⟩
  · exact Ended.terminal (hb.consult _ _) hl h
  · exact Ended.raise hb hf (hb.fault_event hn) h

theorem sendNextOrComplete_outcome {r m t : State} (hb : Between r m) (hc : m.cursor = r.cursor) (hf : r.faults = [])
    (hl : ByCode r terminalCodes) (h : sendNextOrComplete m = .next t) : RowOutcome r t := by
  rcases withField_next h with ⟨c, hcur, h⟩ | ⟨hn, h⟩
  · rcases withField_next h with ⟨l, hlen, h⟩ | ⟨hn, h⟩
    · split at h
      · rcases withField_next h with ⟨base, _, h⟩ | ⟨hn, h⟩
        · exact Ended.byte (hb.advance hc hcur hlen ‹_›) (memRead_next h).2
        · exact Ended.raise hb hf (hb.fault_base hn) h
      · exact completion_outcome hb hf hl h
    · exact Ended.raise hb hf (hb.fault_length hn) h
  · exact Ended.raise hb hf (hb.fault_cursor hn) h

theorem nackPath_outcome {r t : State} (hf : r.faults = []) (hl : ByCode r terminalCodes) (h : nackPath r = .next t) :
    RowOutcome r t := by
  rcases withField_next h with ⟨ev, _, h⟩ | ⟨hn, h⟩
  · dsimp only at h
    split at h
    · exact sendNextOrComplete_outcome ((Between.refl r).consult _ _) (State.consult_cursor _ _ _) hf hl h
    · exact Ended.terminal ((Between.refl r).consult _ _) hl h
  · exact Ended.raise (Between.refl r) hf ((Between.refl r).fault_event hn) h

theorem startRow_outcome {r t : State} (hf : r.faults = []) (h : startRow r = .next t) :
    (r.roleState ≠ .repeatedStartPending ∧ RowOutcome r t) ∨ (r.roleState = .repeatedStartPending ∧ t = r) := by
  unfold startRow at h
  split at h
  · exact .inr ⟨‹_›, (Host.Outcome.next.inj h).symm⟩
  · rcases withField_next h with ⟨a, _, h⟩ | ⟨hn, h⟩
    · exact .inl ⟨‹_›, Ended.byte (Between.refl r) h⟩
    · exact .inl ⟨‹_›, Ended.raise (Between.refl r) hf (.inr (.inl ⟨rfl, hn⟩)) h⟩

theorem arbLostRow_outcome {r t : State} {code : Byte} (hl : ByCode r terminalCodes) (h : arbLostRow code r = .next t) :
    RowOutcome r t := by
  refine ⟨_, (Between.refl r).consult (.onNackOrArbitrationLoss code) 0x00#8, .inl
    ⟨true, actStart (r.consult (.onNackOrArbitrationLoss code) 0x00#8).1, false,
      if actStart (r.consult (.onNackOrArbitrationLoss code) 0x00#8).1 then .repeatedStartPending else .idle, ?_, ?_⟩⟩
  · split
    · exact .inr (.inr ⟨rfl, hl⟩)
    · exact .inr (.inl ⟨rfl, .inl hl⟩)
  · rw [← State.issue_eq]
    exact (Host.Outcome.next.inj h).symm

theorem issueRxAck_outcome {r m t : State} (hb : Between r m) (hf : r.faults = []) (h : issueRxAck m = .next t) :
    RowOutcome r t := by
  rcases withField_next h with ⟨l, _, h⟩ | ⟨hn, h⟩
  · rcases withField_next h with ⟨c, _, h⟩ | ⟨hn, h⟩
    · exact Ended.command hb h
    · exact Ended.raise hb hf (hb.fault_cursor hn) h
  · exact Ended.raise hb hf (hb.fault_length hn) h

theorem storeReceived_outcome {r t : State} {k : State → Out} (hf : r.faults = [])
    (hk : ∀ m t, Between r m → k m = .next t → RowOutcome r t) (h : storeReceived k r = .next t) : RowOutcome r t := by
  have hb := Between.read r
  rcases withField_next h with ⟨c, hcur, h⟩ | ⟨hn, h⟩
  · rcases withField_next h with ⟨l, hlen, h⟩ | ⟨hn, h⟩
    · split at h
      · rcases withField_next h with ⟨base, hbase, h⟩ | ⟨hn, h⟩
        · exact hk _ _ (hb.store rfl rfl hcur hlen ‹_› hbase) (memWrite_next h).2
        · exact Ended.raise hb hf (hb.fault_base hn) h
      · exact hk _ _ hb h
    · exact Ended.raise hb hf (hb.fault_length hn) h
  · exact Ended.raise hb hf (hb.fault_cursor hn) h

theorem respAddrRx_outcome {r t : State} {code : Byte} (h : respAddrRx code r = .next t) : RowOutcome r t :=
  Ended.command ((Between.readRx r).consult _ _) h

theorem respData_outcome {r t : State} {hs : Bool} {code : Byte} (h : respData hs code r = .next t) : RowOutcome r t :=
  Ended.command ((Between.read r).consult _ _) h

theorem byteRequested_outcome {r m t : State} (hb : Between r m) (hf : r.faults = [])
    (hl : ByCode r [0xA8#8, 0xB0#8, 0xB8#8]) (h : byteRequested m = .next t) : RowOutcome r t := by
  unfold byteRequested at h
  split at h
  · exact Ended.byte (hb.policyCall _) h
  · rename_i hn
    rw [hb.fields.2.2.2.2.2.2] at hn
    exact Ended.raise hb hf (.inl ⟨rfl, (Bool.not_eq_true _).mp hn, hl⟩) h

theorem respAddrTx_outcome {r t : State} {first : Bool} {code : Byte} (hf : r.faults = [])
    (hl : ByCode r [0xA8#8, 0xB0#8, 0xB8#8]) (h : respAddrTx first code r = .next t) : RowOutcome r t := by
  have hb : Between r (if ({ r with transferMode := .responderTransmit }.readPort .data).slots.get .onAddressMatch then
      (({ r with transferMode := .responderTransmit }.readPort .data).policyCall
        (.onAddressMatch (matchedAddress ({ r with transferMode := .responderTransmit }.readPort .data).data) code)).2
      else { r with transferMode := .responderTransmit }.readPort .data) := by
    split
    · exact (Between.readTx r).policyCall _
    · exact Between.readTx r
  unfold respAddrTx at h
  dsimp only at h hb
  split at h
  · exact byteRequested_outcome hb hf hl h
  · exact Ended.command hb h

theorem stopReceivedRow_outcome {r t : State} (h : stopReceivedRow r = .next t) : RowOutcome r t :=
  Ended.command ((Between.refl r).consult _ _) h

theorem lastByte_outcome {r t : State} {code : Byte} (h : lastByte code r = .next t) : RowOutcome r t :=
  Ended.command ((Between.refl r).consult _ _) h

theorem busErrorRow_outcome {r t : State} (hl : r.lastEvent = some 0x00#8) (h : busErrorRow r = .next t) : RowOutcome r t :=
  ⟨r, Between.refl r, .inl ⟨true, false, true, .idle, .inr (.inl ⟨rfl, .inr hl⟩), by
    rw [← State.issue_eq]
    exact (Host.Outcome.next.inj h).symm⟩⟩

/-- Everything an event instruction can do: it was enabled, the report and its reading of SR came first, and then one
outcome of a row; a START row in RepeatedStartPending does nothing more. -/
theorem exec_event_next {i : Instr} {s t : State} (hp : i.port = .event) (h : exec i s = .next t) :
    ∃ code d, encode i = [code, d] ∧ code &&& 0xF8#8 = code ∧ s.deliveryEnabled = true ∧
      ((¬(s.roleState = .repeatedStartPending ∧ (i = .start d ∨ i = .repStart d)) ∧ RowOutcome (s.afterReport code d) t) ∨
        (s.roleState = .repeatedStartPending ∧ t = s.afterReport code d ∧ (i = .start d ∨ i = .repStart d))) := by
  have open_row : ∀ {code d : Byte} {row : State → Out}, code &&& 0xF8#8 = code → deliver code d row s = .next t →
      s.deliveryEnabled = true ∧ (s.afterReport code d).faults = [] ∧ row (s.afterReport code d) = .next t := by
    intro code d row hc h
    have he := deliver_next h
    exact ⟨he, State.faults_of_enabled (s := s) he, by rwa [deliver_enabled he hc] at h⟩
  cases i with
  | busError d =>
    obtain ⟨he, hf, h⟩ := open_row (by rfl) h
    exact ⟨_, d, rfl, rfl, he, .inl ⟨by simp, busErrorRow_outcome rfl h⟩⟩
  | start d =>
    obtain ⟨he, hf, h⟩ := open_row (by rfl) h
    rcases startRow_outcome hf h with ⟨hr, h⟩ | ⟨hr, ht⟩
    · exact ⟨_, d, rfl, rfl, he, .inl ⟨fun hx => hr hx.1, h⟩⟩
    · exact ⟨_, d, rfl, rfl, he, .inr ⟨hr, ht, .inl rfl⟩⟩
  | repStart d =>
    obtain ⟨he, hf, h⟩ := open_row (by rfl) h
    rcases startRow_outcome hf h with ⟨hr, h⟩ | ⟨hr, ht⟩
    · exact ⟨_, d, rfl, rfl, he, .inl ⟨fun hx => hr hx.1, h⟩⟩
    · exact ⟨_, d, rfl, rfl, he, .inr ⟨hr, ht, .inr rfl⟩⟩
  | mtSlaAck d =>
    obtain ⟨he, hf, h⟩ := open_row (by rfl) h
    exact ⟨_, d, rfl, rfl, he, .inl ⟨by simp, sendNextOrComplete_outcome (Between.refl _) rfl hf ⟨_, by decide, rfl⟩ h⟩⟩
  | mtSlaNack d =>
    obtain ⟨he, hf, h⟩ := open_row (by rfl) h
    exact ⟨_, d, rfl, rfl, he, .inl ⟨by simp, nackPath_outcome hf ⟨_, by decide, rfl⟩ h⟩⟩
  | mtDataAck d =>
    obtain ⟨he, hf, h⟩ := open_row (by rfl) h
    exact ⟨_, d, rfl, rfl, he, .inl ⟨by simp, sendNextOrComplete_outcome (Between.refl _) rfl hf ⟨_, by decide, rfl⟩ h⟩⟩
  | mtDataNack d =>
    obtain ⟨he, hf, h⟩ := open_row (by rfl) h
    exact ⟨_, d, rfl, rfl, he, .inl ⟨by simp, nackPath_outcome hf ⟨_, by decide, rfl⟩ h⟩⟩
  | arbLost d =>
    obtain ⟨he, hf, h⟩ := open_row (by rfl) h
    exact ⟨_, d, rfl, rfl, he, .inl ⟨by simp, arbLostRow_outcome ⟨_, by decide, rfl⟩ h⟩⟩
  | mrSlaAck d =>
    obtain ⟨he, hf, h⟩ := open_row (by rfl) h
    exact ⟨_, d, rfl, rfl, he, .inl ⟨by simp, issueRxAck_outcome (Between.refl _) hf h⟩⟩
  | mrSlaNack d =>
    obtain ⟨he, hf, h⟩ := open_row (by rfl) h
    exact ⟨_, d, rfl, rfl, he, .inl ⟨by simp, nackPath_outcome hf ⟨_, by decide, rfl⟩ h⟩⟩
  | mrDataAck d =>
    obtain ⟨he, hf, h⟩ := open_row (by rfl) h
    exact ⟨_, d, rfl, rfl, he, .inl ⟨by simp, storeReceived_outcome hf (fun _ _ hb hk => issueRxAck_outcome hb hf hk) h⟩⟩
  | mrDataNack d =>
    obtain ⟨he, hf, h⟩ := open_row (by rfl) h
    exact ⟨_, d, rfl, rfl, he, .inl ⟨by simp, storeReceived_outcome hf (fun _ _ hb hk => completion_outcome hb hf ⟨_, by decide, rfl⟩ hk) h⟩⟩
  | srSlaAck d =>
    obtain ⟨he, hf, h⟩ := open_row (by rfl) h
    exact ⟨_, d, rfl, rfl, he, .inl ⟨by simp, respAddrRx_outcome h⟩⟩
  | srArbLostSlaAck d =>
    obtain ⟨he, hf, h⟩ := open_row (by rfl) h
    exact ⟨_, d, rfl, rfl, he, .inl ⟨by simp, respAddrRx_outcome h⟩⟩
  | srGcallAck d =>
    obtain ⟨he, hf, h⟩ := open_row (by rfl) h
    exact ⟨_, d, rfl, rfl, he, .inl ⟨by simp, respAddrRx_outcome h⟩⟩
  | srArbLostGcallAck d =>
    obtain ⟨he, hf, h⟩ := open_row (by rfl) h
    exact ⟨_, d, rfl, rfl, he, .inl ⟨by simp, respAddrRx_outcome h⟩⟩
  | srDataAck d =>
    obtain ⟨he, hf, h⟩ := open_row (by rfl) h
    exact ⟨_, d, rfl, rfl, he, .inl ⟨by simp, respData_outcome h⟩⟩
  | srDataNack d =>
    obtain ⟨he, hf, h⟩ := open_row (by rfl) h
    exact ⟨_, d, rfl, rfl, he, .inl ⟨by simp, respData_outcome h⟩⟩
  | srGcallDataAck d =>
    obtain ⟨he, hf, h⟩ := open_row (by rfl) h
    exact ⟨_, d, rfl, rfl, he, .inl ⟨by simp, respData_outcome h⟩⟩
  | srGcallDataNack d =>
    obtain ⟨he, hf, h⟩ := open_row (by rfl) h
    exact ⟨_, d, rfl, rfl, he, .inl ⟨by simp, respData_outcome h⟩⟩
  | srStop d =>
    obtain ⟨he, hf, h⟩ := open_row (by rfl) h
    exact ⟨_, d, rfl, rfl, he, .inl ⟨by simp, stopReceivedRow_outcome h⟩⟩
  | stSlaAck d =>
    obtain ⟨he, hf, h⟩ := open_row (by rfl) h
    exact ⟨_, d, rfl, rfl, he, .inl ⟨by simp, respAddrTx_outcome hf ⟨_, by decide, rfl⟩ h⟩⟩
  | stArbLostSlaAck d =>
    obtain ⟨he, hf, h⟩ := open_row (by rfl) h
    exact ⟨_, d, rfl, rfl, he, .inl ⟨by simp, respAddrTx_outcome hf ⟨_, by decide, rfl⟩ h⟩⟩
  | stDataAck d =>
    obtain ⟨he, hf, h⟩ := open_row (by rfl) h
    exact ⟨_, d, rfl, rfl, he, .inl ⟨by simp, byteRequested_outcome (Between.refl _) hf ⟨_, by decide, rfl⟩ h⟩⟩
  | stDataNack d =>
    obtain ⟨he, hf, h⟩ := open_row (by rfl) h
    exact ⟨_, d, rfl, rfl, he, .inl ⟨by simp, lastByte_outcome h⟩⟩
  | stLastData d =>
    obtain ⟨he, hf, h⟩ := open_row (by rfl) h
    exact ⟨_, d, rfl, rfl, he, .inl ⟨by simp, lastByte_outcome h⟩⟩
  | initController _ _ _ _ => cases hp
  | initControllerRaw _ _ _ _ _ => cases hp
  | configureResponder _ _ _ _ _ _ _ _ => cases hp
  | reset => cases hp
  | shutDown => cases hp
  | stop => cases hp
  | transmit _ _ _ _ _ => cases hp
  | receive _ _ _ _ => cases hp

end Sys2Proof.Machine
end

