-- ==== Sys2Proof/Laws/Run.lean ====
section
/-! SUPPORT. Runs of a machine, one step at a time. -/

namespace Sys2Proof.Machine

/-- A run begins with its first step. -/
theorem run_step (M : Host.Core) {s t : M.State} (h : M.step s = .next t) (n : Nat) : M.run (n + 1) s = M.run n t := by
  simp [Host.Core.run, h]

/-- A run ends with its last step. -/
theorem run_snoc (M : Host.Core) {n : Nat} {s t : M.State} (h : M.run n s = .next t) : M.run (n + 1) s = M.step t := by
  induction n generalizing s with
  | zero =>
    simp only [Host.Core.run, Host.Outcome.next.injEq] at h
    subst h
    simp only [Host.Core.run]
    cases M.step s <;> rfl
  | succ n ih =>
    cases hx : M.step s with
    | next u =>
      rw [run_step M hx] at h ⊢
      exact ih h
    | fault r => simp [Host.Core.run, hx] at h
    | refused r => simp [Host.Core.run, hx] at h

end Sys2Proof.Machine
end

