-- ==== Sys2Proof/Laws/Steps.lean ====
section
/-! SUPPORT. What a step can do, said once. -/

namespace Sys2Proof.Machine

/-- Everything a step can do, by the move it takes. -/
inductive StepOutcome (s t : State) : Prop
  /-- An instruction decoded from a port runs; a host operation only in phase Ready. -/
  | instr (p : Port) (bytes tail : List Byte) (rest : List Move) (i : Instr) (hs : s.script = portMove p bytes :: rest)
      (hd : decode p bytes = .instr i tail)
      (hp : p = .host → s.phase = .ready) (h : exec i { s with script := rest } = .next t)
  /-- A reserved status code is delivered. -/
  | reserved (bytes : List Byte) (sr data : Byte) (rest : List Move) (hs : s.script = .event bytes :: rest)
      (hd : decode .event bytes = .reject (.reservedStatus sr data)) (he : s.deliveryEnabled = true)
      (h : t = { ({ s with script := rest } : State).afterReport (statusCode sr) data with
        faults := [.unrecognisedEvent (statusCode sr)] })
  /-- A record is refused. -/
  | refusal (n : RefuseName) (bytes : List Byte) (rest : List Move) (hs : s.script = .host bytes :: rest) (hp : s.phase = .ready)
      (h : t = ({ s with script := rest } : State).afterRefusal n)
  /-- The Orchestrator checks. -/
  | check (rest : List Move) (hs : s.script = .check :: rest ∨ s.phase ≠ .ready) (h : Machine.check { s with script := rest } = .next t)
  /-- The peripheral clears stop_pending. -/
  | stopDone (rest : List Move) (hs : s.script = .stopDone :: rest) (hp : s.stopPending = true)
      (h : t = { s with script := rest, stopPending := false })
  /-- A policy answer is laid down. -/
  | answer (a : Answer) (rest : List Move) (hs : s.script = .answer a :: rest)
      (h : t = { s with script := rest, answers := s.answers ++ [a] })
  /-- The host writes a byte of its memory. -/
  | hostWrite (a : Half) (v : Byte) (rest : List Move) (hs : s.script = .memWrite a v :: rest)
      (h : t = { s with script := rest, mem := Memory.write s.mem a.toNat v })
  /-- The host's allocation changes. -/
  | hostAlloc (r : List Region) (rest : List Move) (hs : s.script = .alloc r :: rest)
      (h : t = { s with script := rest, alloc := r })
  /-- No move is left and the state is not stuck. -/
  | idle (hs : s.script = []) (hp : s.phase = .ready) (hn : ¬s.Stuck) (h : t = s)

theorem statusCode_idem (sr : Byte) : statusCode sr &&& 0xF8#8 = statusCode sr := by
  simp [statusCode, BitVec.and_assoc]

/-- A step of a rejected event or record. -/
theorem rejected_next {p : Port} {bytes : List Byte} {r : Reject} {s t : State} {rest : List Move}
    (hs : s.script = portMove p bytes :: rest) (hp : p = .host → s.phase = .ready) (hd : decode p bytes = .reject r)
    (h : rejected r { s with script := rest } = .next t) : StepOutcome s t := by
  cases p with
  | event =>
    rcases decode_event_reject hd with rfl | ⟨sr, data, rfl⟩
    · cases h
    · have h : deliver (statusCode sr) data (raise (.unrecognisedEvent (statusCode sr))) { s with script := rest } = .next t := h
      have he := deliver_next h
      have hf : (({ s with script := rest } : State).afterReport (statusCode sr) data).faults = [] :=
        State.faults_of_enabled (s := { s with script := rest }) he
      rw [deliver_enabled he (statusCode_idem sr), raise_clean hf] at h
      exact .reserved bytes sr data rest hs hd he (Host.Outcome.next.inj h).symm
  | host =>
    rcases decode_host_reject hd with rfl | rfl | rfl | rfl | rfl
    · cases h
    all_goals exact .refusal _ bytes rest hs (hp rfl) (Host.Outcome.next.inj h).symm

theorem fetchBytes_run {p : Port} {bytes tail : List Byte} {i : Instr} (h : decode p bytes = .instr i tail) (s : State) :
    fetchBytes p bytes s = .run i s := by simp [fetchBytes, h]

theorem fetchBytes_done {p : Port} {bytes : List Byte} {r : Reject} (h : decode p bytes = .reject r) (s : State) :
    fetchBytes p bytes s = .done (rejected r s) := by simp [fetchBytes, h]

/-- A step whose move carries bytes. -/
theorem bytes_next {p : Port} {bytes : List Byte} {s t : State} {rest : List Move} (hs : s.script = portMove p bytes :: rest)
    (hp : p = .host → s.phase = .ready) (hf : fetch s = fetchBytes p bytes { s with script := rest })
    (h : step s = .next t) : StepOutcome s t := by
  unfold step at h
  rw [hf] at h
  cases hd : decode p bytes with
  | instr i tail =>
    rw [fetchBytes_run hd] at h
    exact .instr p bytes tail rest i hs hd hp h
  | reject r =>
    rw [fetchBytes_done hd] at h
    exact rejected_next hs hp hd h

theorem step_next {s t : State} (h : step s = .next t) : StepOutcome s t := by
  have done : ∀ {o : Out}, fetch s = .done o → o = .next t := by
    intro o hf
    simpa only [step, hf] using h
  cases hs : s.script with
  | nil =>
    have h := done (o := idleStep s) (by simp only [fetch, hs])
    unfold idleStep at h
    split at h
    · have h := (unlessFaulted_next h).2
      split at h
      · cases h
      · exact .idle hs ‹_› ‹_› (Host.Outcome.next.inj h).symm
    · exact .check s.script (.inr ‹_›) h
  | cons m rest =>
    cases m with
    | event bytes => exact bytes_next (p := .event) hs (fun h => by cases h) (by simp only [fetch, hs]) h
    | host record =>
      by_cases hp : s.phase = .ready
      · exact bytes_next (p := .host) hs (fun _ => hp) (by simp only [fetch, hs, if_pos hp]) h
      · exact .check s.script (.inr hp) (done (o := Machine.check s) (by simp only [fetch, hs, if_neg hp]))
    | check => exact .check rest (.inl hs) (done (by simp only [fetch, hs]))
    | stopDone =>
      have h := done (o := clearStop { s with script := rest }) (by simp only [fetch, hs])
      unfold clearStop at h
      split at h
      · exact .stopDone rest hs ‹_› (Host.Outcome.next.inj h).symm
      · cases h
    | answer a =>
      exact .answer a rest hs
        (Host.Outcome.next.inj (done (o := layAnswer a { s with script := rest }) (by simp only [fetch, hs]))).symm
    | memWrite a v =>
      exact .hostWrite a v rest hs
        (Host.Outcome.next.inj (done (o := Machine.hostWrite a v { s with script := rest }) (by simp only [fetch, hs]))).symm
    | alloc r =>
      exact .hostAlloc r rest hs
        (Host.Outcome.next.inj (done (o := Machine.hostAlloc r { s with script := rest }) (by simp only [fetch, hs]))).symm

end Sys2Proof.Machine
end

