-- ==== Sys2Proof/Tests/Slice0.lean ====
section
/-! SUPPORT. Tests against spec/95_test_vectors.md and words written out from 30_encoding.md, and a witness for every
statement that has hypotheses. -/

open Sys2Proof Sys2Proof.Machine

namespace Sys2Proof.Tests

/-! ## Helpers -/

/-- A field of the next state, if there is one. -/
def after {α : Type} (o : Out) (f : State → α) : Option α :=
  match o with
  | .next t => some (f t)
  | .fault _ => none
  | .refused _ => none

/-- What one step writes by the port, reads left out, and the role it leaves. -/
def writes (o : Out) : Option (List (PeriphReg × Byte) × RoleState) :=
  after o fun t => (t.portLog.filterMap fun p => match p with
    | .write r v => some (r, v)
    | .read _ => none, t.roleState)

/-- A transmit of two bytes at 0x0100 to address 0x50, started, nothing sent yet. -/
def busy : State :=
  { State.reset with
    bufferBase := some 0x0100#16
    length := some 2#16
    cursor := some 0#16
    lastEvent := some 0x08#8
    targetAddress := some 0xA0#8
    timeoutBudget := some 50#16
    roleState := .busy
    transferMode := .controllerTransmit
    phase := .waitDone
    op := some ⟨7#4, false, 0x50#7, 0x0100#16, 2#16, false, false⟩
    ctrlEn := true
    ctrlIe := true
    ctrlEa := true
    sr := 0x08#8
    mem := [(0x0100, 0x01#8), (0x0101, 0x02#8)] }

/-- The same with both bytes sent. -/
def sent : State := { busy with cursor := some 2#16 }

/-- A repeated start requested. -/
def repeated : State := { sent with roleState := .repeatedStartPending }

/-- A controller initialised with a budget, with no transfer yet. -/
def initialised (budget : Half) : State :=
  { State.reset with roleState := .idle, timeoutBudget := some budget, ctrlEn := true, ctrlIe := true, ctrlEa := true }

/-- A state with a callback in one slot only. -/
def withSlot (k : Slot) (s : State) : State :=
  { s with slots := ⟨k = .onComplete, k = .onNackOrArbitrationLoss, k = .onAddressMatch, k = .onByteReceived,
      k = .onStopReceived, k = .onByteRequested, k = .onLastByte⟩ }

/-- A callback in a slot and the answer to its next call. -/
def answering (k : Slot) (action out : Byte) (s : State) : State := { withSlot k s with answers := [⟨k, action, out⟩] }

/-- A state in which a fault is recorded. -/
def faulted : State := { busy with faults := [.missingByteRequested] }

/-! ## Well-formedness -/

theorem test_wf_region_wraps : Instr.wf (.transmit 0x50#7 0xFFFF#16 2#16 false false) = false ∧
    Instr.wf (.receive 0x50#7 0xFFFF#16 2#16 false) = false := by decide
theorem test_wf_region_at_top : Instr.wf (.transmit 0x50#7 0xFFFF#16 1#16 false false) = true ∧
    Instr.wf (.receive 0x50#7 0x0001#16 0xFFFF#16 false) = true := by decide

/-! ## Decoding, from the words of R81 and R95 -/

theorem test_decode_controller_acks :
    decode .event [0x08#8, 0x55#8] = .instr (.start 0x55#8) [] ∧ decode .event [0x10#8, 0x55#8] = .instr (.repStart 0x55#8) [] ∧
    decode .event [0x18#8, 0x55#8] = .instr (.mtSlaAck 0x55#8) [] ∧ decode .event [0x28#8, 0x55#8] = .instr (.mtDataAck 0x55#8) [] ∧
    decode .event [0x40#8, 0x55#8] = .instr (.mrSlaAck 0x55#8) [] ∧ decode .event [0x50#8, 0x55#8] = .instr (.mrDataAck 0x55#8) [] := by decide
theorem test_decode_controller_nacks :
    decode .event [0x20#8, 0x55#8] = .instr (.mtSlaNack 0x55#8) [] ∧ decode .event [0x30#8, 0x55#8] = .instr (.mtDataNack 0x55#8) [] ∧
    decode .event [0x38#8, 0x55#8] = .instr (.arbLost 0x55#8) [] ∧ decode .event [0x48#8, 0x55#8] = .instr (.mrSlaNack 0x55#8) [] ∧
    decode .event [0x58#8, 0x55#8] = .instr (.mrDataNack 0x55#8) [] := by decide
theorem test_decode_responder_receive :
    decode .event [0x60#8, 0x84#8] = .instr (.srSlaAck 0x84#8) [] ∧ decode .event [0x68#8, 0x84#8] = .instr (.srArbLostSlaAck 0x84#8) [] ∧
    decode .event [0x70#8, 0x00#8] = .instr (.srGcallAck 0x00#8) [] ∧ decode .event [0x78#8, 0x00#8] = .instr (.srArbLostGcallAck 0x00#8) [] ∧
    decode .event [0x80#8, 0x5A#8] = .instr (.srDataAck 0x5A#8) [] ∧ decode .event [0x88#8, 0x5A#8] = .instr (.srDataNack 0x5A#8) [] ∧
    decode .event [0x90#8, 0x06#8] = .instr (.srGcallDataAck 0x06#8) [] ∧ decode .event [0x98#8, 0x06#8] = .instr (.srGcallDataNack 0x06#8) [] ∧
    decode .event [0xA0#8, 0x00#8] = .instr (.srStop 0x00#8) [] := by decide
theorem test_decode_responder_transmit :
    decode .event [0xA8#8, 0x85#8] = .instr (.stSlaAck 0x85#8) [] ∧ decode .event [0xB0#8, 0x85#8] = .instr (.stArbLostSlaAck 0x85#8) [] ∧
    decode .event [0xB8#8, 0x00#8] = .instr (.stDataAck 0x00#8) [] ∧ decode .event [0xC0#8, 0x00#8] = .instr (.stDataNack 0x00#8) [] ∧
    decode .event [0xC8#8, 0x00#8] = .instr (.stLastData 0x00#8) [] ∧ decode .event [0x00#8, 0x00#8] = .instr (.busError 0x00#8) [] := by decide
/-- 95_test_vectors.md section 2.1: the prescaler bits and bit 2 of SR take no part. -/
theorem test_decode_low_bits : decode .event [0x1B#8, 0x00#8] = .instr (.mtSlaAck 0x00#8) [] ∧
    decode .event [0x0C#8, 0x00#8] = .instr (.start 0x00#8) [] ∧
    decode .event [0xD2#8, 0x00#8] = .reject (.reservedStatus 0xD2#8 0x00#8) := by decide
/-- initialize_controller with frequency_or_divisor 400000 = 0x00061A80, timeout 50, on_complete present. -/
theorem test_decode_init : decode .host [0x01#8, 0x80#8, 0x1A#8, 0x06#8, 0x00#8, 0x32#8, 0x00#8, 0x01#8] =
    .instr (.initController 400000#32 50#16 true false) [] := by decide
/-- I1: baud 0x20, prescaler 1, timeout 7, on_complete present. -/
theorem test_decode_init_raw : decode .host [0x02#8, 0x20#8, 0x00#8, 0x01#8, 0x07#8, 0x00#8, 0x01#8] =
    .instr (.initControllerRaw 0x20#8 1#2 7#16 true false) [] := by decide
/-- Scenario D line 1: address 0x42, on_byte_requested (slot 5) only. -/
theorem test_decode_configure : decode .host [0x03#8, 0x42#8, 0x00#8, 0x00#8, 0x08#8] =
    .instr (.configureResponder 0x42#7 false 0x00#7 false false false true false) [] := by decide
theorem test_decode_plain : decode .host [0x04#8] = .instr .reset [] ∧ decode .host [0x05#8] = .instr .shutDown [] ∧
    decode .host [0x06#8] = .instr .stop [] := by decide
/-- Scenario A line 2 and Scenario C line 1. -/
theorem test_decode_transfers :
    decode .host [0x07#8, 0x50#8, 0x00#8, 0x01#8, 0x02#8, 0x00#8, 0x00#8, 0x00#8] =
      .instr (.transmit 0x50#7 0x0100#16 2#16 false false) [] ∧
    decode .host [0x08#8, 0x50#8, 0x00#8, 0x02#8, 0x03#8, 0x00#8, 0x00#8, 0x00#8] =
      .instr (.receive 0x50#7 0x0200#16 3#16 false) [] := by decide
/-- F5 to F8. -/
theorem test_decode_refused :
    decode .host [0x07#8, 0x80#8, 0x00#8, 0x01#8, 0x02#8, 0x00#8, 0x00#8, 0x00#8] = .reject .address ∧
    decode .host [0x07#8, 0x50#8, 0xFF#8, 0xFF#8, 0x02#8, 0x00#8, 0x00#8, 0x00#8] = .reject .region ∧
    decode .host [0x0A#8] = .reject .reservedSelector ∧
    decode .host [0x02#8, 0x48#8, 0x00#8, 0x04#8, 0x32#8, 0x00#8, 0x00#8] = .reject .timing := by decide
theorem test_table_words : decodeTableWord 8 0x08 = some (.start 0x00#8) ∧ decodeTableWord 8 0x04 = some .reset ∧
    decodeTableWord 4 0x8 = some (.receive 0x00#7 0x0000#16 0#16 false) ∧ decodeTableWord 8 0xF8 = none := by decide
/-- 95_test_vectors.md section 2.1, R85 and R89 to R92. -/
theorem test_bytes : cmd true false true = 0xD5#8 ∧ cmd false true false = 0xA5#8 ∧ slaByte 0x50#7 false = 0xA0#8 ∧
    slaByte 0x7F#7 true = 0xFF#8 ∧ addrReg 0x42#7 true = 0x85#8 ∧ amaskReg 0x03#7 = 0x06#8 ∧ matchedAddress 0x85#8 = 0x42#7 := by decide

/-! ## Controller events (95_test_vectors.md section 2.3) -/

theorem test_start_sends : writes (exec (.start 0#8) busy) = some ([(.data, 0xA0#8), (.ctrl, 0xC5#8)], .busy) := by decide
theorem test_start_unarmed : after (exec (.start 0#8) (initialised 50#16)) (fun t => (t.faults, t.irqFlag)) =
    some ([.unwrittenRead .targetAddress], true) := by decide
theorem test_repStart_held : after (exec (.repStart 0#8) repeated) (fun t => (t.irqFlag, t.lastEvent, t.deliveryEnabled)) =
    some (true, some 0x10#8, false) := by decide
theorem test_mtSlaAck_sends : writes (exec (.mtSlaAck 0#8) busy) = some ([(.data, 0x01#8), (.ctrl, 0xC5#8)], .busy) := by decide
theorem test_mtSlaAck_empty : writes (exec (.mtSlaAck 0#8) { busy with length := some 0#16 }) = some ([(.ctrl, 0xD5#8)], .idle) := by decide
theorem test_mtSlaNack_stop_start : writes (exec (.mtSlaNack 0#8) (answering .onNackOrArbitrationLoss 0x0C#8 0#8 busy)) =
    some ([(.ctrl, 0xF5#8)], .repeatedStartPending) := by decide
theorem test_mtDataAck_restart : writes (exec (.mtDataAck 0#8) (answering .onComplete 0x04#8 0#8 sent)) =
    some ([(.ctrl, 0xE5#8)], .repeatedStartPending) := by decide
theorem test_mtDataNack_none : writes (exec (.mtDataNack 0#8) (answering .onNackOrArbitrationLoss 0x00#8 0#8 busy)) =
    some ([(.ctrl, 0xC5#8)], .busy) := by decide
theorem test_mtDataNack_cont_wins :
    after (exec (.mtDataNack 0#8) (answering .onNackOrArbitrationLoss 0x18#8 0#8 { busy with cursor := some 1#16 }))
      (fun t => (t.data, t.cursor, t.stopPending, t.roleState)) = some (0x02#8, some 2#16, false, .busy) := by decide
theorem test_arbLost_default : writes (exec (.arbLost 0#8) busy) = some ([(.ctrl, 0xC5#8)], .idle) := by decide
theorem test_arbLost_start : writes (exec (.arbLost 0#8) (answering .onNackOrArbitrationLoss 0x0C#8 0#8 busy)) =
    some ([(.ctrl, 0xE5#8)], .repeatedStartPending) := by decide
theorem test_mrSlaAck : writes (exec (.mrSlaAck 0#8) busy) = some ([(.ctrl, 0xC5#8)], .busy) := by decide
theorem test_mrSlaAck_empty : writes (exec (.mrSlaAck 0#8) { busy with length := some 0#16 }) = some ([(.ctrl, 0x85#8)], .busy) := by decide
theorem test_mrSlaNack : writes (exec (.mrSlaNack 0#8) busy) = some ([(.ctrl, 0xD5#8)], .idle) := by decide
/-- Scenario C line 6. -/
theorem test_mrDataAck_stores : after (exec (.mrDataAck 0x22#8) { busy with length := some 3#16, cursor := some 1#16 })
    (fun t => (Memory.read t.mem 0x0101, t.cursor, t.ctrlEa)) = some (0x22#8, some 2#16, false) := by decide
theorem test_mrDataAck_dropped : after (exec (.mrDataAck 0x99#8) sent) (fun t => (t.mem, t.cursor, t.ctrlEa)) =
    some (sent.mem, some 2#16, false) := by decide
theorem test_mrDataNack_last : after (exec (.mrDataNack 0x33#8) { busy with cursor := some 1#16 })
    (fun t => (Memory.read t.mem 0x0101, t.cursor, t.roleState, t.stopPending)) = some (0x33#8, some 2#16, .idle, true) := by decide
theorem test_mrDataNack_dropped : writes (exec (.mrDataNack 0x99#8) { busy with length := some 0#16 }) =
    some ([(.ctrl, 0xD5#8)], .idle) := by decide

/-! ## Responder events (95_test_vectors.md section 2.4) -/

theorem test_srSlaAck_default : after (exec (.srSlaAck 0x84#8) busy) (fun t => (t.transferMode, t.ctrlEa)) =
    some (.responderReceive, true) := by decide
theorem test_srSlaAck_call : after (exec (.srSlaAck 0x84#8) (answering .onAddressMatch 0x00#8 0#8 busy)) (fun t => (t.calls, t.ctrlEa)) =
    some ([.onAddressMatch 0x42#7 0x60#8], false) := by decide
theorem test_srArbLostSlaAck : writes (exec (.srArbLostSlaAck 0x84#8) busy) = some ([(.ctrl, 0xC5#8)], .busy) := by decide
theorem test_srGcallAck : after (exec (.srGcallAck 0x00#8) (answering .onAddressMatch 0x01#8 0#8 busy)) (fun t => (t.calls, t.ctrlEa)) =
    some ([.onAddressMatch 0x00#7 0x70#8], true) := by decide
theorem test_srArbLostGcallAck : writes (exec (.srArbLostGcallAck 0x00#8) busy) = some ([(.ctrl, 0xC5#8)], .busy) := by decide
theorem test_srDataAck_default : writes (exec (.srDataAck 0x5A#8) busy) = some ([(.ctrl, 0x85#8)], .busy) := by decide
theorem test_srDataAck_no_start : writes (exec (.srDataAck 0x5A#8) (answering .onByteReceived 0x05#8 0#8 busy)) =
    some ([(.ctrl, 0xC5#8)], .busy) := by decide
theorem test_srDataNack_start : writes (exec (.srDataNack 0x5A#8) (answering .onByteReceived 0x05#8 0#8 busy)) =
    some ([(.ctrl, 0xE5#8)], .busy) := by decide
theorem test_srGcallDataAck : after (exec (.srGcallDataAck 0x06#8) (answering .onByteReceived 0x01#8 0#8 busy)) (fun t => (t.calls, t.ctrlEa)) =
    some ([.onByteReceived 0x06#8 0x90#8], true) := by decide
theorem test_srGcallDataNack : writes (exec (.srGcallDataNack 0x06#8) (answering .onByteReceived 0x04#8 0#8 busy)) =
    some ([(.ctrl, 0xA5#8)], .busy) := by decide
theorem test_srStop_default : after (exec (.srStop 0#8) busy) (fun t => (t.ctrlEa, t.transferMode)) = some (true, .controllerTransmit) := by decide
theorem test_srStop_stop_ignored : writes (exec (.srStop 0#8) (answering .onStopReceived 0x08#8 0#8 busy)) =
    some ([(.ctrl, 0x85#8)], .busy) := by decide
/-- RE13: the answer of on_address_match is ignored. -/
theorem test_stSlaAck : writes (exec (.stSlaAck 0x85#8) { busy with
      slots := ⟨false, false, true, false, false, true, false⟩
      answers := [⟨.onAddressMatch, 0x00#8, 0#8⟩, ⟨.onByteRequested, 0x01#8, 0x10#8⟩] }) =
    some ([(.data, 0x10#8), (.ctrl, 0xC5#8)], .busy) := by decide
theorem test_stArbLostSlaAck_fault : after (exec (.stArbLostSlaAck 0x85#8) busy) (fun t => (t.transferMode, t.faults, t.irqFlag)) =
    some (.responderTransmit, [.missingByteRequested], true) := by decide
theorem test_stDataAck : writes (exec (.stDataAck 0#8) (answering .onByteRequested 0x05#8 0x21#8 busy)) =
    some ([(.data, 0x21#8), (.ctrl, 0xC5#8)], .busy) := by decide
theorem test_stDataAck_fault : after (exec (.stDataAck 0#8) busy) (fun t => t.faults) = some [.missingByteRequested] := by decide
theorem test_stDataNack : after (exec (.stDataNack 0#8) (answering .onLastByte 0x05#8 0#8 busy)) (fun t => (t.calls, t.ctrlEa, t.ctrlSta)) =
    some ([.onLastByte 0xC0#8], true, true) := by decide
theorem test_stLastData : writes (exec (.stLastData 0#8) busy) = some ([(.ctrl, 0xC5#8)], .busy) := by decide
theorem test_busError : after (exec (.busError 0#8) busy) (fun t => (t.roleState, t.stopPending, t.lastEvent)) =
    some (.idle, true, some 0x00#8) := by decide

/-! ## Host operations and the Orchestrator (95_test_vectors.md sections 2.6 to 2.8) -/

theorem test_init_effect : after (exec (.initController 400000#32 50#16 true false) State.reset)
    (fun t => (t.timeoutBudget, t.roleState, t.ctrlValue, t.results)) = some (some 50#16, .idle, 0x45#8, [0x01#8]) := by decide
theorem test_initRaw : after (exec (.initControllerRaw 0x20#8 1#2 7#16 true false) State.reset)
    (fun t => (t.baud, t.sr, t.timeoutBudget, t.slots.onComplete)) = some (0x20#8, 0x01#8, some 7#16, true) := by decide
theorem test_configure : writes (exec (.configureResponder 0x42#7 true 0x00#7 false false false true false) State.reset) =
    some ([(.addr, 0x85#8), (.amask, 0x00#8), (.ctrl, 0xC5#8)], .uninitialized) := by decide
theorem test_reset : writes (exec .reset { busy with phase := .ready }) = some ([(.ctrl, 0x00#8), (.ctrl, 0xC5#8)], .idle) := by decide
theorem test_shutDown : after (exec .shutDown (initialised 1#16)) (fun t => (t.ctrlValue, t.pullupEn, t.roleState, t.results)) =
    some (0x00#8, false, .uninitialized, [0x01#8]) := by decide
theorem test_stop : after (exec .stop (initialised 2#16)) (fun t => (t.roleState, t.stopPending, t.phase)) =
    some (.stopping, true, .waitStop) := by decide
/-- W1. -/
theorem test_transmit_uninitialised : after (exec (.transmit 0x50#7 0x0100#16 2#16 false false) State.reset)
    (fun t => (t.results, t.portLog, t.phase)) = some ([0x02#8], [], .ready) := by decide
theorem test_transmit_accepted : after (exec (.transmit 0x50#7 0x0100#16 2#16 false false) (initialised 50#16))
    (fun t => (t.phase, t.waitK)) = some (.waitQ1, 0#16) := by decide
theorem test_receive_accepted : after (exec (.receive 0x50#7 0x0200#16 3#16 false) (initialised 50#16))
    (fun t => (t.phase, t.op.map fun o => o.dir)) = some (.waitQ1, some true) := by decide
/-- Scenario C line 2. -/
theorem test_check_arms : after (check { initialised 50#16 with phase := .waitQ1, op := some ⟨8#4, true, 0x50#7, 0x0200#16, 3#16, false, false⟩ })
    (fun t => (t.targetAddress, t.transferMode, t.ctrlSta, t.roleState)) = some (some 0xA1#8, .controllerReceive, true, .busy) := by decide
/-- A posted transmit returns NoWait. -/
theorem test_check_posted : after (check { initialised 0#16 with phase := .waitQ1, op := some ⟨7#4, false, 0x50#7, 0x0100#16, 2#16, false, true⟩ })
    (fun t => (t.results, t.waitK, t.phase)) = some ([0x04#8], 0#16, .ready) := by decide
/-- S3: the stop that times out forces a reset. -/
theorem test_check_stop_timeout : after (check { initialised 0#16 with phase := .waitStop, roleState := .stopping, stopPending := true })
    (fun t => (t.results, t.roleState, t.stopPending, t.ctrlValue)) = some ([0x03#8], .idle, false, 0x45#8) := by decide
/-- F2. -/
theorem test_step_reserved : after (step { initialised 50#16 with script := [.event [0xD0#8, 0x00#8]] })
    (fun t => (t.lastEvent, t.faults, t.portLog)) = some (some 0xD0#8, [.unrecognisedEvent 0xD0#8], [.read .sr]) := by decide
/-- F1. -/
theorem test_step_disabled : step { State.reset with script := [.event [0x08#8, 0x00#8]] } = .refused .deliveryDisabled := by rfl
/-- F6. -/
theorem test_step_refused : after (step { State.reset with
    script := [.host [0x07#8, 0x50#8, 0xFF#8, 0xFF#8, 0x02#8, 0x00#8, 0x00#8, 0x00#8]] }) (fun t => (t.refused, t.results)) =
    some ([.region], []) := by decide
theorem test_withFetchWord_event : step (State.reset.withFetchWord 8 0x38) =
    exec (.arbLost 0#8) { State.reset with ctrlEn := true, ctrlIe := true } := by rfl
theorem test_withFetchWord_host : step (State.reset.withFetchWord 4 0x6) = exec .stop State.reset := by rfl
/-- A byte the host has released is not admitted: no step (20_memory.md R64). -/
theorem test_not_admitted : exec (.mtSlaAck 0#8) { busy with alloc := [] } = .fault (.bufferNotAdmitted 0x0100#16) := by rfl

/-! ## Witnesses: a state and operands that meet the hypotheses of each statement -/

theorem witness_DecodeEncode : Instr.wf (.transmit 0x7F#7 0xFFFF#16 1#16 true true) = true ∧ Instr.wf (.busError 0xFF#8) = true := by decide
theorem witness_DecodedIsWellFormed : decode .host [0x06#8, 0xAA#8] = .instr .stop [0xAA#8] ∧
    decode .event [0xC8#8, 0x01#8] = .instr (.stLastData 0x01#8) [] := by decide
theorem witness_StatusFieldAloneDecodes : (BitVec.extractLsb' 3 5 0xCF#8).toNat = 25 ∧ 25 < (BitVec.extractLsb' 3 5 0xD0#8).toNat := by decide
theorem witness_StepRunsDecoded_event : ({ busy with script := [.event [0x18#8, 0x00#8]] } : State).script = .event [0x18#8, 0x00#8] :: [] ∧
    decode .event [0x18#8, 0x00#8] = .instr (.mtSlaAck 0x00#8) [] := by decide
theorem witness_StepRunsDecoded_host : ({ State.reset with script := [.host [0x04#8]] } : State).script = .host [0x04#8] :: [] ∧
    State.reset.phase = .ready ∧ decode .host [0x04#8] = .instr .reset [] := by decide
theorem witness_HostWaitsWhileBusy : ({ busy with script := [.host [0x04#8]] } : State).phase ≠ .ready ∧
    ({ busy with script := [.host [0x04#8]] } : State).script = .host [0x04#8] :: [] ∧ Instr.port .reset = .host := by decide
/-- R326: power-on after a refused record: no agent can step, and the state is not FINISHED. -/
def refusedOnce : State := { State.reset with refused := [.selector] }
/-- R326: a host record is still to come, so the host can step; a stop still pending, so the Peripheral can. -/
theorem test_stuck : step refusedOnce = .fault .stuck ∧ step State.reset = .next State.reset ∧ State.reset.Finished ∧
    ¬({ refusedOnce with script := [.host [0x04#8]] } : State).Stuck ∧ ¬({ refusedOnce with stopPending := true } : State).Stuck ∧
    ¬({ State.reset with roleState := .busy, phase := .waitDone } : State).Stuck ∧ faulted.Stuck :=
  ⟨rfl, rfl, by decide, by decide, by decide, by decide, by decide⟩
theorem witness_OtherMovesStep :
    ({ busy with script := [.check] } : State).script = .check :: [] ∧
    (({ busy with script := [.stopDone], stopPending := true } : State).script = .stopDone :: [] ∧
      ({ busy with script := [.stopDone], stopPending := true } : State).stopPending = true) ∧
    (({ busy with script := [.stopDone] } : State).script = .stopDone :: [] ∧ busy.stopPending = false) ∧
    ({ busy with script := [.answer ⟨.onComplete, 8#8, 0#8⟩] } : State).script = .answer ⟨.onComplete, 8#8, 0#8⟩ :: [] ∧
    ({ busy with script := [.memWrite 0xFFFF#16 1#8] } : State).script = .memWrite 0xFFFF#16 1#8 :: [] ∧
    ({ busy with script := [.alloc []] } : State).script = .alloc [] :: [] ∧
    (busy.script = [] ∧ busy.phase ≠ .ready) ∧
    (State.reset.script = [] ∧ State.reset.phase = .ready ∧ State.reset.faults = [] ∧ ¬State.reset.Stuck) ∧
    (refusedOnce.script = [] ∧ refusedOnce.phase = .ready ∧ refusedOnce.faults = [] ∧ refusedOnce.Stuck) ∧
    (faulted.script = [] ∧ faulted.faults = .missingByteRequested :: []) := by decide
theorem witness_DeliveryNeedsEnable : Instr.port (.start 0#8) = .event ∧
    (State.reset.faults = [] ∧ ¬(State.reset.ctrlEn = true ∧ State.reset.ctrlIe = true ∧ State.reset.irqFlag = false)) ∧
    faulted.faults = .missingByteRequested :: [] := by decide
theorem witness_FaultedHasNoStep : ({ faulted with phase := .ready } : State).faults = .missingByteRequested :: [] ∧
    Instr.wf .reset = true ∧ Instr.port .reset = .host ∧ ({ faulted with phase := .ready } : State).phase = .ready := by decide
theorem witness_ReservedStatusFaults : ({ busy with script := [.event [0xD0#8, 0#8]] } : State).script = .event (0xD0#8 :: 0#8 :: []) :: [] ∧
    ({ busy with script := [.event [0xD0#8, 0#8]] } : State).deliveryEnabled = true ∧ 0xD0 ≤ (0xD0#8 : Byte).toNat ∧
    0xD0 ≤ (0xFF#8 : Byte).toNat := by decide
theorem witness_PolicyAnswer :
    busy.slots.get (Call.slot .onStopReceived) = false ∧
    ((withSlot .onComplete busy).slots.get (Call.slot (.onComplete 0#8)) = true ∧
      ({ withSlot .onComplete busy with answers := [⟨.onLastByte, 1#8, 0#8⟩, ⟨.onComplete, 4#8, 0#8⟩] } : State).answers =
        [⟨.onLastByte, 1#8, 0#8⟩] ++ ⟨.onComplete, 4#8, 0#8⟩ :: [] ∧
      ∀ b ∈ [(⟨.onLastByte, 1#8, 0#8⟩ : Answer)], b.slot ≠ Call.slot (.onComplete 0#8)) ∧
    ∀ b ∈ (withSlot .onComplete busy).answers, b.slot ≠ Call.slot (.onComplete 0#8) := by decide
theorem witness_StartRow : busy.deliveryEnabled = true ∧ busy.roleState ≠ .repeatedStartPending ∧
    busy.targetAddress = some 0xA0#8 ∧ repeated.deliveryEnabled = true ∧ repeated.roleState = .repeatedStartPending ∧
    (initialised 50#16).deliveryEnabled = true ∧ (initialised 50#16).roleState ≠ .repeatedStartPending ∧
    (initialised 50#16).targetAddress = none := by decide
/-- The states of the four rows that use the buffer: nothing armed, one field armed short, a byte released, none left. -/
theorem witness_AckRow : busy.deliveryEnabled = true ∧ busy.cursor = some 0#16 ∧ busy.length = some 2#16 ∧
    busy.bufferBase = some 0x0100#16 ∧ (0#16 : Half).toNat < (2#16 : Half).toNat ∧ busy.admitted (0x0100#16 + 0#16) = true ∧
    ((initialised 1#16).deliveryEnabled = true ∧ (initialised 1#16).cursor = none) ∧
    (({ busy with length := none } : State).deliveryEnabled = true ∧ ({ busy with length := none } : State).length = none) ∧
    (({ busy with bufferBase := none } : State).deliveryEnabled = true ∧ ({ busy with bufferBase := none } : State).bufferBase = none) ∧
    (({ busy with alloc := [] } : State).deliveryEnabled = true ∧ ({ busy with alloc := [] } : State).admitted (0x0100#16 + 0#16) = false) ∧
    sent.deliveryEnabled = true ∧ sent.cursor = some 2#16 ∧ sent.length = some 2#16 ∧ sent.slots.onComplete = false ∧
    (withSlot .onComplete sent).deliveryEnabled = true ∧ (withSlot .onComplete sent).slots.onComplete = true := by decide
/-- NackRow with no callback, an answer without CONT, and an answer with CONT in each state of the buffer's fields. -/
theorem witness_NackRow : busy.deliveryEnabled = true ∧ busy.slots.onNackOrArbitrationLoss = false ∧
    (((answering .onNackOrArbitrationLoss 0x04#8 0#8 busy).afterReport 0x20#8 0#8).policyCall
      (.onNackOrArbitrationLoss 0x20#8)).1 = ⟨.onNackOrArbitrationLoss, 0x04#8, 0#8⟩ ∧ (0x04#8 : Byte).getLsbD 4 = false ∧
    (answering .onNackOrArbitrationLoss 0x10#8 0#8 busy).deliveryEnabled = true ∧
    (answering .onNackOrArbitrationLoss 0x10#8 0#8 busy).slots.onNackOrArbitrationLoss = true ∧
    (((answering .onNackOrArbitrationLoss 0x10#8 0#8 busy).afterReport 0x30#8 0#8).policyCall
      (.onNackOrArbitrationLoss 0x30#8)).1 = ⟨.onNackOrArbitrationLoss, 0x10#8, 0#8⟩ ∧ (0x10#8 : Byte).getLsbD 4 = true ∧
    (busy.cursor = some 0#16 ∧ busy.length = some 2#16 ∧ busy.bufferBase = some 0x0100#16 ∧
      busy.admitted (0x0100#16 + 0#16) = true) ∧
    (answering .onNackOrArbitrationLoss 0x10#8 0#8 (initialised 1#16)).cursor = none ∧
    (answering .onNackOrArbitrationLoss 0x10#8 0#8 { busy with length := none }).length = none ∧
    (answering .onNackOrArbitrationLoss 0x10#8 0#8 { busy with bufferBase := none }).bufferBase = none ∧
    (answering .onNackOrArbitrationLoss 0x10#8 0#8 { busy with alloc := [] }).admitted (0x0100#16 + 0#16) = false ∧
    (sent.cursor = some 2#16 ∧ sent.length = some 2#16 ∧
      (answering .onNackOrArbitrationLoss 0x10#8 0#8 sent).slots.onComplete = false) ∧
    ({ answering .onNackOrArbitrationLoss 0x14#8 0#8 sent with slots := ⟨true, true, false, false, false, false, false⟩ } : State).slots.onComplete = true := by decide
theorem witness_ArbitrationLost : busy.deliveryEnabled = true ∧ busy.slots.onNackOrArbitrationLoss = false ∧
    (answering .onNackOrArbitrationLoss 0x04#8 0#8 busy).slots.onNackOrArbitrationLoss = true ∧
    (((answering .onNackOrArbitrationLoss 0x04#8 0#8 busy).afterReport 0x38#8 0#8).policyCall
      (.onNackOrArbitrationLoss 0x38#8)).1 = ⟨.onNackOrArbitrationLoss, 0x04#8, 0#8⟩ := by decide
theorem witness_ReceiveAddressAcknowledged : busy.deliveryEnabled = true ∧ busy.cursor = some 0#16 ∧ busy.length = some 2#16 ∧
    (initialised 1#16).deliveryEnabled = true ∧ (initialised 1#16).length = none ∧
    ({ busy with cursor := none } : State).deliveryEnabled = true ∧ ({ busy with cursor := none } : State).cursor = none := by decide
theorem witness_ReceivedByteStored : busy.deliveryEnabled = true ∧ busy.cursor = some 0#16 ∧ busy.length = some 2#16 ∧
    busy.bufferBase = some 0x0100#16 ∧ busy.admitted (0x0100#16 + 0#16) = true ∧
    ((initialised 1#16).deliveryEnabled = true ∧ (initialised 1#16).cursor = none) ∧
    ({ busy with length := none } : State).deliveryEnabled = true ∧ ({ busy with bufferBase := none } : State).deliveryEnabled = true ∧
    ({ busy with alloc := [] } : State).deliveryEnabled = true ∧ ({ busy with alloc := [] } : State).admitted (0x0100#16 + 0#16) = false ∧
    sent.deliveryEnabled = true ∧ sent.cursor = some 2#16 ∧ sent.length = some 2#16 := by decide
theorem witness_FinalByteStored : busy.deliveryEnabled = true ∧ busy.cursor = some 0#16 ∧ busy.length = some 2#16 ∧
    (0#16 : Half).toNat < (2#16 : Half).toNat ∧ busy.bufferBase = some 0x0100#16 ∧ busy.admitted (0x0100#16 + 0#16) = true ∧
    ((initialised 1#16).deliveryEnabled = true ∧ (initialised 1#16).cursor = none) ∧
    ({ busy with length := none } : State).deliveryEnabled = true ∧ ({ busy with bufferBase := none } : State).deliveryEnabled = true ∧
    ({ busy with alloc := [] } : State).admitted (0x0100#16 + 0#16) = false ∧
    busy.slots.onComplete = false ∧ sent.deliveryEnabled = true ∧ sent.cursor = some 2#16 ∧ sent.length = some 2#16 ∧
    (withSlot .onComplete sent).slots.onComplete = true := by decide
theorem witness_ReceiveAddressMatched : busy.deliveryEnabled = true ∧ busy.slots.onAddressMatch = false ∧
    (withSlot .onAddressMatch busy).deliveryEnabled = true ∧ (withSlot .onAddressMatch busy).slots.onAddressMatch = true := by decide
theorem witness_ResponderByteReceived : busy.deliveryEnabled = true ∧ busy.slots.onByteReceived = false ∧
    (answering .onByteReceived 0x05#8 0#8 busy).slots.onByteReceived = true ∧
    (((answering .onByteReceived 0x05#8 0#8 busy).afterReport 0x88#8 0x5A#8).afterDataRead.policyCall
      (.onByteReceived 0x5A#8 0x88#8)).1 = ⟨.onByteReceived, 0x05#8, 0#8⟩ := by decide
theorem witness_ResponderStopReceived : busy.deliveryEnabled = true ∧ busy.slots.onStopReceived = false ∧
    (answering .onStopReceived 0x04#8 0#8 busy).slots.onStopReceived = true ∧
    (((answering .onStopReceived 0x04#8 0#8 busy).afterReport 0xA0#8 0#8).policyCall .onStopReceived).1 = ⟨.onStopReceived, 0x04#8, 0#8⟩ := by decide
theorem witness_TransmitAddressMatched : (answering .onByteRequested 0x01#8 0x10#8 busy).deliveryEnabled = true ∧
    (answering .onByteRequested 0x01#8 0x10#8 busy).slots.onByteRequested = true ∧
    busy.deliveryEnabled = true ∧ busy.slots.onByteRequested = false := by decide
theorem witness_ByteRequestedSends : (answering .onByteRequested 0x01#8 0x21#8 busy).deliveryEnabled = true ∧
    (answering .onByteRequested 0x01#8 0x21#8 busy).slots.onByteRequested = true ∧
    (((answering .onByteRequested 0x01#8 0x21#8 busy).afterReport 0xB8#8 0#8).policyCall .onByteRequested).1 = ⟨.onByteRequested, 0x01#8, 0x21#8⟩ ∧
    busy.deliveryEnabled = true ∧ busy.slots.onByteRequested = false := by decide
theorem witness_LastByteRearms : busy.deliveryEnabled = true ∧ busy.slots.onLastByte = false ∧
    (answering .onLastByte 0x05#8 0#8 busy).slots.onLastByte = true ∧
    (((answering .onLastByte 0x05#8 0#8 busy).afterReport 0xC8#8 0#8).policyCall (.onLastByte 0xC8#8)).1 = ⟨.onLastByte, 0x05#8, 0#8⟩ := by decide
theorem witness_BusErrorStops : busy.deliveryEnabled = true := by decide
theorem witness_DefaultCommands : busy.deliveryEnabled = true ∧ busy.slots = SlotBits.absent ∧
    sent.deliveryEnabled = true ∧ sent.slots = SlotBits.absent ∧ sent.cursor = some 2#16 ∧ sent.length = some 2#16 := by decide
/-- ActionBitsUnread with an answer that is taken and with one that is not. -/
theorem witness_ActionBitsUnread : (0x01#8 : Byte) &&& 0x1D#8 = 0xE3#8 &&& 0x1D#8 ∧
    (∃ t, exec (.stLastData 0#8) { withSlot .onLastByte busy with answers := [⟨.onLastByte, 0x01#8, 0#8⟩] } = .next t) ∧
    ∃ t, exec (.stLastData 0#8) { busy with answers := [⟨.onLastByte, 0x01#8, 0#8⟩] } = .next t := ⟨by decide, ⟨_, rfl⟩, _, rfl⟩
/-- InitialisesController, ConfiguresResponder, ResetRearms, ShutsDown and StopIssues share these hypotheses. -/
theorem witness_host_ready : State.reset.phase = .ready ∧ State.reset.faults = [] ∧ (initialised 1#16).phase = .ready := by decide
theorem witness_ShutDownIdempotent : State.reset.phase = .ready ∧ ∃ t, exec .shutDown State.reset = .next t := ⟨rfl, _, rfl⟩
theorem witness_TransferAccepted : (initialised 1#16).phase = .ready ∧ (initialised 1#16).faults = [] ∧
    (0xFFFF#16 : Half).toNat + (1#16 : Half).toNat ≤ 2 ^ 16 ∧ (initialised 1#16).roleState ≠ .uninitialized ∧
    State.reset.phase = .ready ∧ State.reset.faults = [] ∧ State.reset.roleState = .uninitialized := by decide
/-- A record for each clause of RecordsRefused, at the first value refused. -/
theorem witness_RecordsRefused : State.reset.phase = .ready ∧
    ((0x09#8 : Byte).toNat % 16 = 0 ∨ 8 < (0x09#8 : Byte).toNat % 16) ∧ ((0x10#8 : Byte).toNat % 16 = 0 ∨ 8 < (0x10#8 : Byte).toNat % 16) ∧
    ((0x07#8 : Byte).toNat % 16 = 7 ∨ (0x07#8 : Byte).toNat % 16 = 8) ∧ 0x7F < (0x80#8 : Byte).toNat ∧ (0x7F#8 : Byte).toNat ≤ 0x7F ∧
    0xFFFF < (0#8 : Byte).toNat + 256 * (0#8 : Byte).toNat + 65536 * (1#8 : Byte).toNat ∧
    (0x03#8 : Byte).toNat % 16 = 3 ∧ (0x02#8 : Byte).toNat % 16 = 2 ∧
    0xFF < (0#8 : Byte).toNat + 256 * (1#8 : Byte).toNat ∧ 3 < (4#8 : Byte).toNat := by decide
theorem witness_FirstWaitSucceeds :
    ({ initialised 1#16 with phase := .waitQ1, op := some ⟨7#4, false, 0x50#7, 0#16, 0#16, false, true⟩ } : State).phase = .waitQ1 ∧
    ({ initialised 1#16 with phase := .waitQ1, op := some ⟨7#4, false, 0x50#7, 0#16, 0#16, false, true⟩ } : State).op =
      some ⟨7#4, false, 0x50#7, 0#16, 0#16, false, true⟩ ∧
    (initialised 1#16).faults = [] ∧ (initialised 1#16).roleState = .idle ∧
    ¬((⟨8#4, true, 0x50#7, 0#16, 0#16, false, false⟩ : Op).selector = 7#4 ∧ (⟨8#4, true, 0x50#7, 0#16, 0#16, false, false⟩ : Op).posted = true) ∧
    ({ repeated with phase := .waitQ1 } : State).phase = .waitQ1 ∧ repeated.faults = [] ∧
    repeated.roleState = .repeatedStartPending ∧ repeated.op = some ⟨7#4, false, 0x50#7, 0x0100#16, 2#16, false, false⟩ := by decide
theorem witness_RepeatedStartWaitEnds : ({ repeated with phase := .waitRS, lastEvent := some 0x10#8 } : State).phase = .waitRS ∧
    repeated.faults = [] ∧ repeated.targetAddress = some 0xA0#8 ∧ repeated.op.isSome = true ∧
    ({ repeated with phase := .waitRS, lastEvent := some 0x10#8 } : State).lastEvent = some 0x10#8 ∧
    ({ repeated with phase := .waitRS, lastEvent := some 0x38#8, waitK := 50#16 } : State).timeoutBudget = some 50#16 ∧
    (0x38#8 : Byte) ≠ 0x08#8 ∧ (0x38#8 : Byte) ≠ 0x10#8 := by decide
theorem witness_CompletionWaitEnds : repeated.phase = .waitDone ∧ repeated.faults = [] ∧ repeated.lastEvent = some 0x08#8 ∧
    repeated.roleState = .repeatedStartPending ∧ busy.phase = .waitDone ∧ busy.faults = [] ∧ busy.roleState ≠ .idle ∧
    busy.roleState ≠ .repeatedStartPending ∧ ({ busy with waitK := 50#16 } : State).timeoutBudget = some 50#16 := by decide
theorem witness_StopWaitEnds : ({ State.reset with phase := .waitStop, roleState := .stopping } : State).phase = .waitStop ∧
    State.reset.faults = [] ∧ State.reset.stopPending = false ∧
    ({ initialised 0#16 with phase := .waitStop, stopPending := true } : State).stopPending = true ∧
    ({ initialised 0#16 with phase := .waitStop, stopPending := true } : State).timeoutBudget = some 0#16 := by decide
/-- FailedCheckCounts in each of the four waits, with the budget left, spent and unwritten. -/
theorem witness_FailedCheckCounts : busy.faults = [] ∧ (busy.phase = .waitDone ∧ busy.quiescent = false) ∧
    (({ busy with phase := .waitQ1 } : State).phase = .waitQ1 ∧ ({ busy with phase := .waitQ1 } : State).quiescent = false) ∧
    (({ sent with phase := .waitRS, lastEvent := some 0x28#8 } : State).lastEvent = some 0x28#8 ∧ (0x28#8 : Byte) ≠ 0x08#8 ∧ (0x28#8 : Byte) ≠ 0x10#8) ∧
    ({ busy with phase := .waitStop, stopPending := true } : State).stopPending = true ∧
    (busy.timeoutBudget = some 50#16 ∧ busy.waitK ≠ 50#16) ∧
    ({ busy with waitK := 50#16 } : State).timeoutBudget = some 50#16 ∧ ({ busy with timeoutBudget := none } : State).timeoutBudget = none := by decide
theorem witness_WaitTimesOut : busy.script = [] ∧ busy.faults = [] ∧ busy.timeoutBudget = some 50#16 ∧
    busy.waitK.toNat ≤ (50#16 : Half).toNat ∧ busy.phase = .waitDone ∧ busy.quiescent = false := by decide
theorem witness_busy_inv (script : List Move) (role : RoleState) (h : role = .busy ∨ role = .idle) :
    ({ busy with script := script, roleState := role } : State).Inv where
  memory := (by decide : Memory.wf busy.mem = true)
  cursor := by intro c l h1 h2; cases h1; cases h2; decide
  wait := by intro _ t h; cases h; exact Nat.zero_le _
  stopping := by intro hs; rcases h with rfl | rfl <;> cases hs
  region := by intro b l h1 h2; cases h1; cases h2; decide
  opRegion := by intro o h; cases h; decide
  latched := fun _ => ⟨(by rcases h with rfl | rfl <;> exact fun h => nomatch h), _, rfl, .inl rfl⟩
  armed := ⟨rfl, rfl, rfl⟩
  event := by intro e h; cases h; exact (by decide : (0x08#8 : Byte) = statusCode busy.sr)
  held := by intro h; cases h
  fault := Nat.zero_le 1
theorem witness_StepKeepsInv : ({ busy with script := [.event [0x18#8, 0x00#8]], roleState := .busy } : State).Inv ∧
    ∃ t, step { busy with script := [.event [0x18#8, 0x00#8]], roleState := .busy } = .next t :=
  ⟨witness_busy_inv _ _ (.inl rfl), _, rfl⟩
theorem witness_ReturnsOneResult : ({ busy with script := [.check], roleState := .idle } : State).Inv ∧
    ∃ t, step { busy with script := [.check], roleState := .idle } = .next t ∧ t.results = [0x08#8] :=
  ⟨witness_busy_inv _ _ (.inr rfl), _, rfl, rfl⟩
/-- PendingFlagChanges: a held START sets the flag, the address that answers it clears it, and no event runs meanwhile. -/
theorem witness_PendingFlagChanges :
    after (step { repeated with script := [.event [0x10#8, 0#8]] }) (fun t => t.irqFlag) = some true ∧ repeated.irqFlag = false ∧
    after (step { repeated with phase := .waitRS, irqFlag := true, script := [.check] }) (fun t => t.irqFlag) = some false ∧
    ({ repeated with irqFlag := true } : State).irqFlag = true ∧ Instr.port (.start 0#8) = .event ∧ (0xC5#8 : Byte).getLsbD 7 = true := by decide
theorem witness_StopPendingChanges :
    after (step { busy with script := [.event [0x00#8, 0#8]] }) (fun t => t.stopPending) = some true ∧ busy.stopPending = false ∧
    after (step { busy with stopPending := true, script := [.stopDone] }) (fun t => t.stopPending) = some false ∧
    after (step { busy with stopPending := true, phase := .ready, script := [.host [0x05#8]] }) (fun t => t.stopPending) = some false := by decide
theorem witness_MarksNeverCleared :
    after (step { faulted with stopPending := true, refused := [.region], script := [.stopDone] }) (fun t => (t.faults, t.refused)) =
      some ([.missingByteRequested], [.region]) ∧
    after (core.run 1 { refusedOnce with script := [.host [0x04#8]] }) (fun t : State => t.refused) = some [.selector] := by decide
theorem witness_WaitCounterChanges :
    after (step { busy with script := [.check] }) (fun t => t.waitK) = some 1#16 ∧ busy.waitK = 0#16 ∧
    after (step { initialised 9#16 with waitK := 5#16, script := [.host [0x06#8]] }) (fun t => (t.waitK, t.phase)) = some (0#16, .waitStop) := by decide
theorem witness_TransferModeUnread : ∃ t, step { busy with script := [.event [0x18#8, 0x00#8]] } = .next t := ⟨_, rfl⟩
theorem witness_deliverReserved : ∃ t, deliverReserved 0xD0#8 0#8 busy = .next t := ⟨_, rfl⟩
/-- For OneCommandPerDispatch, DispatchAccessOrder and EventFrame: a command, a held START, a missing callback, an unwritten
field of each kind. -/
theorem witness_event_next : repeated.roleState = .repeatedStartPending ∧
    after (exec (.start 0#8) (initialised 1#16)) (fun t => t.faults) = some [.unwrittenRead .targetAddress] ∧
    after (exec (.mtSlaAck 0#8) (initialised 1#16)) (fun t => t.faults) = some [.unwrittenRead .cursor] ∧
    after (exec (.mrSlaAck 0#8) (initialised 1#16)) (fun t => t.faults) = some [.unwrittenRead .length] ∧
    after (exec (.mtSlaAck 0#8) { busy with bufferBase := none }) (fun t => t.faults) = some [.unwrittenRead .bufferBase] ∧ Instr.port (.mrDataAck 7#8) = .event ∧ (∃ t, exec (.mrDataAck 7#8) busy = .next t) ∧
    (∃ t, exec (.repStart 0#8) repeated = .next t) ∧ ∃ t, exec (.stDataAck 0#8) busy = .next t :=
  ⟨rfl, by decide, by decide, by decide, by decide, rfl, ⟨_, rfl⟩, ⟨_, rfl⟩, _, rfl⟩
theorem witness_ResponderFrame : encode (.srSlaAck 0x84#8) = [0x60#8, 0x84#8] ∧ 0x60 ≤ (0x60#8 : Byte).toNat ∧
    ∃ t, exec (.srSlaAck 0x84#8) busy = .next t := ⟨rfl, by decide, _, rfl⟩
/-- RoleEntered: a step into each of the five roles, into Idle by an event, an operation and each check. -/
theorem witness_RoleEntered :
    after (step { initialised 1#16 with phase := .waitQ1, op := some ⟨7#4, false, 0x50#7, 0#16, 0#16, false, true⟩, script := [.check] })
      (fun t => t.roleState) = some .busy ∧ (initialised 1#16).roleState = .idle ∧
    after (step { initialised 1#16 with script := [.host [0x06#8]] }) (fun t => t.roleState) = some .stopping ∧
    after (step { initialised 1#16 with script := [.host [0x05#8]] }) (fun t => t.roleState) = some .uninitialized ∧
    after (step { answering .onComplete 0x04#8 0#8 sent with script := [.event [0x28#8, 0#8]] }) (fun t => t.roleState) =
      some .repeatedStartPending ∧ sent.roleState = .busy ∧
    after (step { busy with script := [.event [0x00#8, 0#8]] }) (fun t => t.roleState) = some .idle ∧ busy.roleState = .busy ∧
    after (step { State.reset with script := [.host [0x04#8]] }) (fun t => t.roleState) = some .idle ∧
    after (step { busy with phase := .waitRS, lastEvent := some 0x38#8, waitK := 50#16, script := [.check] })
      (fun t => (t.roleState, t.results)) = some (.idle, busy.results ++ [0x03#8]) ∧
    after (step { busy with phase := .waitStop, roleState := .stopping, script := [.check] })
      (fun t => (t.roleState, t.results)) = some (.idle, busy.results ++ [0x01#8]) ∧
    after (step { busy with phase := .waitStop, roleState := .stopping, stopPending := true, waitK := 50#16, script := [.check] })
      (fun t => (t.roleState, t.results)) = some (.idle, busy.results ++ [0x03#8]) := by decide
theorem witness_TransferFieldsWrittenQuiescent :
    after (step { initialised 1#16 with phase := .waitQ1, op := some ⟨7#4, false, 0x50#7, 0#16, 0#16, false, true⟩, script := [.check] })
      (fun t => t.targetAddress) = some (some 0xA0#8) ∧ (initialised 1#16).targetAddress = none := by decide
theorem witness_ConfigurationWriters : after (exec (.initControllerRaw 0x20#8 1#2 7#16 true false) State.reset) (fun t => t.timeoutBudget) = some (some 7#16) ∧
    after (exec (.configureResponder 0x42#7 true 0#7 true false false false false) State.reset) (fun t => t.addr) = some 0x85#8 ∧
    after (exec .shutDown { State.reset with pullupEn := true }) (fun t => t.pullupEn) = some false := by decide
theorem witness_MemoryFrame : Memory.wf busy.mem = true ∧ (∃ t, exec (.mrDataAck 7#8) busy = .next t) ∧
    (∃ t, exec (.mrDataNack 7#8) sent = .next t) ∧ (∃ t, exec (.mrDataAck 7#8) (initialised 1#16) = .next t) ∧
    busy.bufferBase = some 0x0100#16 ∧ busy.cursor = some 0#16 ∧ busy.length = some 2#16 ∧ (initialised 1#16).cursor = none :=
  ⟨by decide, ⟨_, rfl⟩, ⟨_, rfl⟩, ⟨_, rfl⟩, rfl, rfl, rfl, rfl⟩

end Sys2Proof.Tests
end

section
/-! PROOF. The port an accepted instruction came in by (30_encoding.md R99). -/

namespace Sys2Proof

/-- What the decoder accepts belongs to the port its bytes were read from. -/
theorem decode_instr_port {p : Port} {bytes rest : List Byte} {i : Instr} (h : decode p bytes = .instr i rest) :
    i.port = p := by
  match p, bytes with
  | .event, [] => cases h
  | .event, [_] => cases h
  | .event, sr :: data :: tail =>
    have h : decodeEvent sr data tail = .instr i rest := h
    unfold decodeEvent at h
    split at h <;> cases h <;> rfl
  | .host, [] => cases h
  | .host, sel :: tail =>
    have h : decodeHost sel tail = .instr i rest := h
    unfold decodeHost decodeInit decodeInitRaw decodeConfigure decodeTransmit decodeReceive at h
    split at h <;> (try split at h) <;> (try split at h) <;> (try split at h) <;> cases h <;> rfl

end Sys2Proof
end

section
/-! PROOF. The pending flag, CTRL.INTERRUPT_FLAG (10_state.md R36). A step either takes an event while the flag is 0, or it
keeps the flag or clears it by a write of CTRL: each check and each host operation is of the second kind. -/

namespace Sys2Proof.Machine

/-- The values whose write to CTRL clears the pending flag: INTERRUPT_FLAG 1 or ENABLE 0. -/
def ClearsPending (v : Byte) : Prop := v.getLsbD 7 = true ∨ v.getLsbD 2 = false

/-- From s to t a value that clears the flag was written to CTRL, and the flag is 0. -/
def ClearedByCtrl (s t : State) : Prop :=
  t.irqFlag = false ∧ ∃ ops v, t.portLog = s.portLog ++ ops ∧ .write .ctrl v ∈ ops ∧ ClearsPending v

/-- What a step that takes no event does to the flag. -/
def PendingKeptOrCleared (s t : State) : Prop := t.irqFlag = s.irqFlag ∨ ClearedByCtrl s t

/-! ## The writes of CTRL -/

theorem writeCtrl_irqFlag_of_clearsPending {v : Byte} (h : ClearsPending v) (s : State) : (s.writeCtrl v).irqFlag = false := by
  rw [State.writeCtrl_irqFlag]
  rcases h with h | h <;> simp only [h, Bool.not_true, Bool.and_false, Bool.false_and]

theorem cmd_clearsPending (ack sta sto : Bool) : ClearsPending (cmd ack sta sto) := .inl (cmd_bit7 ack sta sto)

theorem afterCommand_cleared (s : State) (ack sta sto : Bool) : ClearedByCtrl s (s.afterCommand ack sta sto) :=
  ⟨rfl, _, _, rfl, by simp, cmd_clearsPending ack sta sto⟩

theorem afterByteCommand_cleared (s : State) (ack sta sto : Bool) (b : Byte) :
    ClearedByCtrl s (s.afterByteCommand ack sta sto b) :=
  ⟨rfl, _, cmd ack sta sto, rfl, by simp, cmd_clearsPending ack sta sto⟩

theorem afterArm_cleared (s : State) : ClearedByCtrl s s.afterArm := ⟨rfl, _, 0xC5#8, rfl, by simp, .inl rfl⟩

theorem afterDisable_cleared (s : State) : ClearedByCtrl s s.afterDisable := ⟨rfl, _, 0x00#8, rfl, by simp, .inr rfl⟩

/-- Accesses before the write of CTRL do not matter. -/
theorem ClearedByCtrl.of_log_extended {s u t : State} (hp : s.portLog <+: u.portLog) (h : ClearedByCtrl u t) : ClearedByCtrl s t := by
  obtain ⟨pre, hpre⟩ := hp
  obtain ⟨hi, ops, v, hlog, hmem, hv⟩ := h
  exact ⟨hi, pre ++ ops, v, by rw [hlog, ← hpre, List.append_assoc], List.mem_append_right pre hmem, hv⟩

theorem afterReset_cleared (s : State) : ClearedByCtrl s s.afterReset :=
  (afterArm_cleared s.afterDisable).of_log_extended ⟨_, rfl⟩

/-! ## Checks -/

/-- Going on after a start touches neither the flag nor the port. -/
theorem Started.pending {s m t : State} (ht : Started m t) (h : PendingKeptOrCleared s m) : PendingKeptOrCleared s t := by
  rcases ht with rfl | rfl <;> exact h

theorem CheckOutcome.pending {s t : State} (h : CheckOutcome s t) : PendingKeptOrCleared s t := by
  cases h with
  | rearmed o => exact .inl rfl
  | started o t _ _ _ ht =>
    refine ht.pending ?_
    cases o.noStart with
    | true => exact .inl rfl
    | false => exact .inr (afterCommand_cleared (s.armed o) true true false)
  | reissued a t _ _ ht => exact ht.pending (.inr (afterByteCommand_cleared s true false false a))
  | reissueFault a => exact .inr (afterByteCommand_cleared s true false false a)
  | completed => exact .inl rfl
  | stopped => exact .inl rfl
  | counted => exact .inl rfl
  | timedOut => exact .inl rfl
  | timedOutReset => exact .inr (afterReset_cleared s)
  | fault => exact .inl rfl

/-! ## Host operations -/

theorem initBody_cleared {s t : State} {b : Byte} {p : BitVec 2} {tm : Half} {hc hn : Bool}
    (h : initBody b p tm hc hn s = .next t) : ClearedByCtrl s t := by
  simp only [initBody, State.writeCtrl_arm, Host.Outcome.next.injEq] at h
  subst h
  exact .of_log_extended (u := (s.writeBaud b).writePrescaler p) (by simp [State.writeBaud, State.writePrescaler, State.logPort])
    (afterArm_cleared _)

theorem configureBody_cleared {s t : State} {a m : BitVec 7} {g h2 h3 h4 h5 h6 : Bool}
    (h : configureBody a g m h2 h3 h4 h5 h6 s = .next t) : ClearedByCtrl s t := by
  simp only [configureBody, State.writeCtrl_arm, Host.Outcome.next.injEq] at h
  subst h
  exact .of_log_extended (u := (s.writeAddr (addrReg a g)).writeAmask (amaskReg m))
    (by simp [State.writeAddr, State.writeAmask, State.logPort]) (afterArm_cleared _)

theorem resetBody_cleared {s t : State} (h : Host.Outcome.next (s.doReset.returned resultOk) = (.next t : Out)) :
    ClearedByCtrl s t := by
  rw [State.doReset_eq, Host.Outcome.next.injEq] at h
  subst h
  exact afterReset_cleared s

theorem shutDownBody_cleared {s t : State} (h : shutDownBody s = .next t) : ClearedByCtrl s t := by
  simp only [shutDownBody, State.writeCtrl_disable, Host.Outcome.next.injEq] at h
  subst h
  exact afterDisable_cleared s

theorem stopStart_cleared {s t : State} (h : stopStart s = .next t) : ClearedByCtrl s t := by
  simp only [stopStart, State.issue_eq, Host.Outcome.next.injEq] at h
  subst h
  exact afterCommand_cleared s true false true

theorem transferStart_irqFlag {s t : State} (h : transferStart s = .next t) : t.irqFlag = s.irqFlag := by
  unfold transferStart at h
  split at h <;> rw [← Host.Outcome.next.inj h] <;> rfl

/-- An acceptance does to the flag what its operation's first step does. -/
theorem accept_pending {r : Option RefuseName} {o : Op} {run : State → Out} {s t : State} (h : accept r o run s = .next t)
    (hrun : run { s with op := some o } = .next t → PendingKeptOrCleared { s with op := some o } t) : PendingKeptOrCleared s t := by
  rcases accept_next h with ⟨_, rfl⟩ | ⟨n, _, _, rfl⟩ | ⟨_, _, _, h⟩
  · exact .inl rfl
  · exact .inl rfl
  · exact hrun h

theorem exec_host_pending {i : Instr} {s t : State} (hp : i.port = .host) (h : exec i s = .next t) :
    PendingKeptOrCleared s t := by
  cases i
  case initController =>
    dsimp only [exec, execInitController] at h
    exact accept_pending h fun h => .inr (initBody_cleared h)
  case initControllerRaw =>
    dsimp only [exec, execInitControllerRaw] at h
    exact accept_pending h fun h => .inr (initBody_cleared h)
  case configureResponder =>
    dsimp only [exec, execConfigureResponder] at h
    exact accept_pending h fun h => .inr (configureBody_cleared h)
  case reset =>
    dsimp only [exec, execReset] at h
    exact accept_pending h fun h => .inr (resetBody_cleared h)
  case shutDown =>
    dsimp only [exec, execShutDown] at h
    exact accept_pending h fun h => .inr (shutDownBody_cleared h)
  case stop =>
    dsimp only [exec, execStop] at h
    exact accept_pending h fun h => .inr (stopStart_cleared h)
  case transmit =>
    dsimp only [exec, execTransmit] at h
    exact accept_pending h fun h => .inl (transferStart_irqFlag h)
  case receive =>
    dsimp only [exec, execReceive] at h
    exact accept_pending h fun h => .inl (transferStart_irqFlag h)
  all_goals cases hp

/-! ## Events and steps -/

theorem State.irqFlag_of_enabled {s : State} (h : s.deliveryEnabled = true) : s.irqFlag = false :=
  ((s.deliveryEnabled_iff).1 h).2.2.1

theorem exec_event_enabled {i : Instr} {s t : State} (hp : i.port = .event) (h : exec i s = .next t) :
    s.deliveryEnabled = true := by
  obtain ⟨_, _, _, _, he, _⟩ := exec_event_next hp h
  exact he

/-- A step takes an event while the flag is 0, or it keeps the flag or clears it by a write of CTRL. -/
theorem step_pending {s t : State} (h : step s = .next t) :
    (s.irqFlag = false ∧ ∃ bytes rest, s.script = .event bytes :: rest) ∨ PendingKeptOrCleared s t := by
  cases step_next h with
  | instr p bytes tail rest i hs hd _ h =>
    have hport := decode_instr_port hd
    cases p with
    | event => exact .inl ⟨State.irqFlag_of_enabled (s := { s with script := rest }) (exec_event_enabled hport h), bytes, rest, hs⟩
    | host =>
      have hkept := exec_host_pending hport h
      exact .inr hkept
  | reserved bytes _ _ rest hs _ he _ => exact .inl ⟨State.irqFlag_of_enabled he, bytes, rest, hs⟩
  | check _ _ h => exact .inr (check_next h).2.pending
  | refusal n _ _ _ _ h => exact .inr (.inl (h ▸ rfl))
  | stopDone _ _ _ h => exact .inr (.inl (h ▸ rfl))
  | answer _ _ _ h => exact .inr (.inl (h ▸ rfl))
  | hostWrite _ _ _ _ h => exact .inr (.inl (h ▸ rfl))
  | hostAlloc _ _ _ h => exact .inr (.inl (h ▸ rfl))
  | idle _ _ _ h => exact .inr (.inl (h ▸ rfl))

/-- Settles O49: each clause by what a step does to the flag (`step_pending`), and no event runs with the flag 1 because a
delivery is enabled only with the flag 0. -/
theorem pendingFlagChanges : Obligations.PendingFlagChanges := by
  unfold Obligations.PendingFlagChanges
  refine ⟨rfl, fun s v hv => writeCtrl_irqFlag_of_clearsPending hv s, fun s t h => ⟨fun h0 h1 => ?_, fun h1 h0 => ?_⟩,
    fun s t i h1 hp h => ?_⟩
  · rcases step_pending h with ⟨_, hev⟩ | hkeep | ⟨hclr, _⟩
    · exact hev
    · simp [hkeep, h0] at h1
    · simp [hclr] at h1
  · rcases step_pending h with ⟨hlow, _⟩ | hkeep | ⟨_, hwrite⟩
    · simp [hlow] at h1
    · simp [hkeep, h1] at h0
    · exact hwrite
  · simp [State.irqFlag_of_enabled (exec_event_enabled hp h)] at h1

end Sys2Proof.Machine
end

section
/-! PROOF. The marks: recorded faults (10_state.md R43) and the refusal mark (60_exceptions.md R285) are only added to. A
step of the Dispatcher or the Orchestrator is taken with no fault recorded and leaves the refusal mark; the other steps leave
both or add a refusal's name. -/

namespace Sys2Proof.Machine

/-- Every mark of s is a mark of t. -/
def MarksKept (s t : State) : Prop := s.faults ⊆ t.faults ∧ s.refused ⊆ t.refused

theorem MarksKept.refl (s : State) : MarksKept s s := ⟨List.Subset.refl _, List.Subset.refl _⟩

theorem MarksKept.trans {s t u : State} (h : MarksKept s t) (h' : MarksKept t u) : MarksKept s u :=
  ⟨List.Subset.trans h.1 h'.1, List.Subset.trans h.2 h'.2⟩

/-- Marks that do not change are kept. -/
theorem MarksKept.of_eq {s t : State} (hf : t.faults = s.faults) (hr : t.refused = s.refused) : MarksKept s t :=
  ⟨hf ▸ List.Subset.refl _, hr ▸ List.Subset.refl _⟩

/-- A state without faults has only its refusal mark to keep. -/
theorem MarksKept.of_clean {s t : State} (hf : s.faults = []) (hr : t.refused = s.refused) : MarksKept s t :=
  ⟨hf ▸ List.nil_subset _, hr ▸ List.Subset.refl _⟩

theorem afterRefusal_marksKept (s : State) (n : RefuseName) : MarksKept s (s.afterRefusal n) := by
  refine ⟨List.Subset.refl _, ?_⟩
  dsimp only [State.afterRefusal]
  split
  · exact List.Subset.refl _
  · exact List.subset_append_left _ _

theorem RowOutcome.refused {r t : State} (h : RowOutcome r t) : t.refused = r.refused := by
  obtain ⟨m, ⟨_, _, _, _, _, _, _, _, _, _, _, rfl⟩, he⟩ := h
  rcases he with ⟨_, _, _, _, _, rfl⟩ | ⟨_, _, _, rfl⟩ | ⟨_, _, rfl⟩ <;> rfl

theorem exec_event_refused {i : Instr} {s t : State} (hp : i.port = .event) (h : exec i s = .next t) :
    t.refused = s.refused := by
  obtain ⟨code, d, _, _, _, ⟨_, hrow⟩ | ⟨_, rfl, _⟩⟩ := exec_event_next hp h
  · exact hrow.refused
  · rfl

theorem exec_host_marksKept {i : Instr} {s t : State} (hp : i.port = .host) (h : exec i s = .next t) : MarksKept s t := by
  rcases exec_host_next hp h with ⟨_, rfl⟩ | ⟨_, _, rfl⟩ | ⟨_, hf, heff⟩
  · exact .refl t
  · exact afterRefusal_marksKept s .region
  · obtain ⟨_, _, _, _, _, _, _, _, _, _, _, _, _, hr, _⟩ := heff
    exact .of_clean hf hr

theorem exec_marksKept {i : Instr} {s t : State} (h : exec i s = .next t) : MarksKept s t := by
  cases hp : i.port with
  | event => exact .of_clean (State.faults_of_enabled (exec_event_enabled hp h)) (exec_event_refused hp h)
  | host => exact exec_host_marksKept hp h

theorem step_marksKept {s t : State} (h : step s = .next t) : MarksKept s t := by
  cases step_next h with
  | instr _ _ _ _ _ _ _ _ h =>
    have hkept := exec_marksKept h
    exact hkept
  | reserved _ _ _ _ _ _ he h => exact .of_clean (State.faults_of_enabled he) (h ▸ rfl)
  | refusal n _ rest _ _ h => exact h ▸ afterRefusal_marksKept { s with script := rest } n
  | check _ _ h =>
    obtain ⟨hf, hout⟩ := check_next h
    exact .of_clean hf hout.frame.2
  | stopDone _ _ _ h => exact .of_eq (h ▸ rfl) (h ▸ rfl)
  | answer _ _ _ h => exact .of_eq (h ▸ rfl) (h ▸ rfl)
  | hostWrite _ _ _ _ h => exact .of_eq (h ▸ rfl) (h ▸ rfl)
  | hostAlloc _ _ _ h => exact .of_eq (h ▸ rfl) (h ▸ rfl)
  | idle _ _ _ h => exact .of_eq (h ▸ rfl) (h ▸ rfl)

/-- A reflexive and transitive relation that every step keeps holds between the ends of every run. -/
theorem run_related {M : Host.Core} {R : M.State → M.State → Prop} (refl : ∀ s, R s s)
    (trans : ∀ {s t u}, R s t → R t u → R s u) (hstep : ∀ {s t}, M.step s = .next t → R s t) {n : Nat} {s t : M.State}
    (h : M.run n s = .next t) : R s t := by
  induction n generalizing s with
  | zero => exact Host.Outcome.next.inj h ▸ refl s
  | succ n ih =>
    cases hs : M.step s with
    | next u => exact trans (hstep hs) (ih (by rwa [run_step M hs] at h))
    | fault r => simp [Host.Core.run, hs] at h
    | refused r => simp [Host.Core.run, hs] at h

theorem run_marksKept {n : Nat} {s t : State} (h : core.run n s = .next t) : MarksKept s t :=
  run_related (M := core) (R := MarksKept) MarksKept.refl MarksKept.trans step_marksKept h

/-- A clean state has no mark to be kept from. -/
theorem MarksKept.clean {s t : State} (h : MarksKept s t) (ht : t.Clean) : s.Clean :=
  ⟨List.eq_nil_of_subset_nil (ht.1 ▸ h.1), List.eq_nil_of_subset_nil (ht.2 ▸ h.2)⟩

/-- Settles O51: every step keeps the marks (`step_marksKept`), hence every run does, and a FINISHED state has none. -/
theorem marksNeverCleared : Obligations.MarksNeverCleared := by
  unfold Obligations.MarksNeverCleared
  refine ⟨rfl, rfl, fun s t h => ?_, fun n s t hmark hrun hfin => ?_⟩
  · obtain ⟨hf, hr⟩ := step_marksKept h
    exact ⟨fun _ hx => hf hx, fun _ hx => hr hx⟩
  · obtain ⟨_, _, hclean, _⟩ := hfin
    obtain ⟨hf, hr⟩ := (run_marksKept hrun).clean hclean
    exact hmark.elim (fun hne => hne hf) (fun hne => hne hr)

end Sys2Proof.Machine
end

section
/-! PROOF. The status field of SR (30_encoding.md R80 to R83), a reserved code delivered (R83), the command words (R85). -/

namespace Sys2Proof

/-- The status field as SR[7:3] (30_encoding.md R80). -/
theorem extractLsb'_eq_statusField (sr : Byte) : (sr.extractLsb' 3 5).toNat = statusField sr := by
  have hlt := sr.isLt
  simp only [BitVec.extractLsb'_toNat, Nat.shiftRight_eq_div_pow, statusField]
  omega

theorem statusField_statusMask (sr : Byte) : statusField (sr &&& 0xF8#8) = statusField sr := by
  revert sr
  decide

theorem decodeEvent_of_reserved {sr : Byte} (h : 25 < statusField sr) (data : Byte) (rest : List Byte) :
    decodeEvent sr data rest = .reject (.reservedStatus sr data) := by
  obtain ⟨k, hk⟩ : ∃ k, statusField sr = k + 26 := ⟨statusField sr - 26, by omega⟩
  simp only [decodeEvent, hk]

/-- A field that is not reserved stands for one event, which every SR value with that field decodes to. -/
theorem decodeEvent_by_statusField {sr : Byte} (h : statusField sr ≤ 25) (data : Byte) (rest : List Byte) :
    ∃ i, ∀ sr', statusField sr' = statusField sr → decodeEvent sr' data rest = .instr i rest := by
  generalize statusField sr = n at h
  unfold decodeEvent
  interval_cases n <;> exact ⟨_, fun sr' hs => by rw [hs]; rfl⟩

/-- Settles O3: the fields 0 to 25 each stand for one event (`decodeEvent_by_statusField`) and the others are rejected
(`decodeEvent_of_reserved`); both see SR through its status field, which SR & 0xF8 keeps. -/
theorem statusFieldAloneDecodes : Obligations.StatusFieldAloneDecodes := by
  unfold Obligations.StatusFieldAloneDecodes
  intro sr data rest
  rw [extractLsb'_eq_statusField]
  simp only [decode]
  have hmask := statusField_statusMask sr
  by_cases hr : 25 < statusField sr
  · rw [decodeEvent_of_reserved hr, decodeEvent_of_reserved (hmask ▸ hr)]
    simp [hr]
  · obtain ⟨i, hi⟩ := decodeEvent_by_statusField (Nat.not_lt.mp hr) data rest
    rw [hi sr rfl, hi _ hmask]
    simp [hr, Nat.not_lt.mp hr]

end Sys2Proof

namespace Sys2Proof.Machine

/-- Settles O5: the base word 0x85 with each of the eight choices of bits 6, 5 and 4, computed. -/
theorem commandWords : Obligations.CommandWords := by
  unfold Obligations.CommandWords
  decide

/-- The next step delivers a reserved code, which the decoder rejects. -/
theorem step_eq_deliverReserved {s : State} {sr data : Byte} {tail : List Byte} {rest : List Move}
    (hs : s.script = .event (sr :: data :: tail) :: rest) (hr : 25 < statusField sr) :
    step s = deliverReserved sr data { s with script := rest } := by
  have hd : decode .event (sr :: data :: tail) = .reject (.reservedStatus sr data) := decodeEvent_of_reserved hr data tail
  simp only [step, fetch, hs, fetchBytes_done hd, rejected]

theorem deliverReserved_enabled {s : State} (h : s.deliveryEnabled = true) (sr data : Byte) :
    deliverReserved sr data s =
      .next { s.afterReport (statusCode sr) data with faults := [.unrecognisedEvent (statusCode sr)] } := by
  have hclean : (s.afterReport (statusCode sr) data).faults = [] := State.faults_of_enabled (s := s) h
  rw [deliverReserved, deliver_enabled h (statusCode_idem sr), raise_clean hclean]

/-- Settles O12: the decoder rejects the code, so the step delivers it (`step_eq_deliverReserved`), and its row only raises
the fault (`deliverReserved_enabled`). -/
theorem reservedStatusFaults : Obligations.ReservedStatusFaults := by
  unfold Obligations.ReservedStatusFaults
  intro s sr data tail rest hs he hr
  have hfield : 25 < statusField sr := by unfold statusField; omega
  rw [step_eq_deliverReserved hs hfield]
  exact deliverReserved_enabled (s := { s with script := rest }) he sr data

end Sys2Proof.Machine
end

section
/-! PROOF. The bits of an action code that no row reads (30_encoding.md R88), as a relation between two runs: states that
are twins, alike but for the oldest answer, go to twins, for every row of the event table. -/

namespace Sys2Proof.Machine

/-- Two action codes with the same ACK, START, STOP and CONT bits (30_encoding.md R87). -/
def SameAction (x y : Byte) : Prop := x &&& 0x1D#8 = y &&& 0x1D#8

theorem SameAction.refl (x : Byte) : SameAction x x := rfl

/-- The mask keeps every bit it has. -/
theorem SameAction.getLsbD_eq {x y : Byte} (h : SameAction x y) {k : Nat} (hk : (0x1D#8).getLsbD k = true) :
    x.getLsbD k = y.getLsbD k := by
  have hbit := congrArg (BitVec.getLsbD · k) h
  simpa only [BitVec.getLsbD_and, hk, Bool.and_true] using hbit

theorem SameAction.ack {x y : Byte} (h : SameAction x y) : actAck x = actAck y := h.getLsbD_eq rfl
theorem SameAction.start {x y : Byte} (h : SameAction x y) : actStart x = actStart y := h.getLsbD_eq rfl
theorem SameAction.stop {x y : Byte} (h : SameAction x y) : actStop x = actStop y := h.getLsbD_eq rfl
theorem SameAction.cont {x y : Byte} (h : SameAction x y) : actCont x = actCont y := h.getLsbD_eq rfl

/-- Two answers that differ at most in the bits of the action that R88 says are never read. -/
structure SameAnswer (a b : Answer) : Prop where
  slot : a.slot = b.slot
  out : a.out = b.out
  action : SameAction a.action b.action

theorem SameAnswer.refl (a : Answer) : SameAnswer a a := ⟨rfl, rfl, .refl _⟩

/-- Two lists of pending answers: the same, or the same behind a first answer that is a in the one and b in the other. -/
def HeadSwapped (a b : Answer) (l l' : List Answer) : Prop := l = l' ∨ ∃ more, l = a :: more ∧ l' = b :: more

/-- Two states that differ at most in the first pending answer. -/
def Twins (a b : Answer) (s s' : State) : Prop := ∃ left, s' = { s with answers := left } ∧ HeadSwapped a b s.answers left

/-- If the first run answers a next state, then so does the second, and they are twins. -/
def TwinOutcomes (a b : Answer) (o o' : Out) : Prop := ∀ t, o = .next t → ∃ t', o' = .next t' ∧ Twins a b t t'

/-- A row takes twins to twins. -/
def KeepsTwins (a b : Answer) (row : State → Out) : Prop := ∀ s s', Twins a b s s' → TwinOutcomes a b (row s) (row s')

section Twins

variable {a b : Answer} {s s' : State}

/-! ## The shared operations -/

theorem Twins.eq (h : Twins a b s s') : ∃ left, s' = { s with answers := left } := h.imp fun _ hl => hl.1

/-- An update that neither reads nor writes the pending answers keeps twins. -/
theorem Twins.map (f : State → State) (hf : ∀ s l, f { s with answers := l } = { f s with answers := l })
    (h : Twins a b s s') : Twins a b (f s) (f s') := by
  obtain ⟨left, rfl, hl⟩ := h
  have hkept : (f s).answers = s.answers := (congrArg State.answers (hf s s.answers) :)
  exact ⟨left, hf s left, hkept ▸ hl⟩

theorem TwinOutcomes.next (h : Twins a b s s') : TwinOutcomes a b (.next s) (.next s') := by
  rintro t ht
  exact ⟨s', rfl, Host.Outcome.next.inj ht ▸ h⟩

theorem TwinOutcomes.raise (h : Twins a b s s') (r : FaultReason) : TwinOutcomes a b (raise r s) (raise r s') :=
  .next (h.map (fun s => { s with faults := addFault r s.faults }) fun _ _ => rfl)

theorem TwinOutcomes.unlessFaulted (h : Twins a b s s') {o o' : Out} (ho : TwinOutcomes a b o o') :
    TwinOutcomes a b (unlessFaulted s o) (unlessFaulted s' o') := by
  obtain ⟨left, rfl⟩ := h.eq
  intro t ht
  obtain ⟨hclean, ht⟩ := unlessFaulted_next ht
  rw [unlessFaulted_clean (s := { s with answers := left }) hclean]
  exact ho t ht

theorem TwinOutcomes.withField (h : Twins a b s s') {α : Type} (v : Option α) (f : Field) {k k' : α → Out}
    (hk : ∀ x, TwinOutcomes a b (k x) (k' x)) : TwinOutcomes a b (withField v f s k) (withField v f s' k') := by
  cases v with
  | none => exact .raise h _
  | some x => exact hk x

theorem TwinOutcomes.memRead (h : Twins a b s s') (i : Half) {k k' : Byte → Out} (hk : ∀ v, TwinOutcomes a b (k v) (k' v)) :
    TwinOutcomes a b (memRead i s k) (memRead i s' k') := by
  obtain ⟨left, rfl⟩ := h.eq
  intro t ht
  obtain ⟨hadm, ht⟩ := memRead_next ht
  rw [memRead_admitted (s := { s with answers := left }) hadm]
  exact hk _ t ht

theorem TwinOutcomes.memWrite (h : Twins a b s s') (i : Half) (v : Byte) {k k' : State → Out}
    (hk : ∀ u u', Twins a b u u' → TwinOutcomes a b (k u) (k' u')) :
    TwinOutcomes a b (memWrite i v s k) (memWrite i v s' k') := by
  have hstored := h.map ({ · with mem := Memory.write s.mem i.toNat v }) fun _ _ => rfl
  obtain ⟨left, rfl⟩ := h.eq
  intro t ht
  obtain ⟨hadm, ht⟩ := memWrite_next ht
  rw [memWrite_admitted (s := { s with answers := left }) hadm]
  exact hk _ _ hstored t ht

/-- The state in which a row runs: after the report and the Dispatcher's reading of SR. -/
theorem Twins.dispatched (h : Twins a b s s') (code d : Byte) :
    Twins a b { (s.reported code d).readPort .sr with lastEvent := some (statusCode (s.reported code d).sr) }
      { (s'.reported code d).readPort .sr with lastEvent := some (statusCode (s'.reported code d).sr) } :=
  h.map (fun s => { (s.reported code d).readPort .sr with lastEvent := some (statusCode (s.reported code d).sr) }) fun _ _ => rfl

theorem KeepsTwins.deliver {row : State → Out} (h : KeepsTwins a b row) (code d : Byte) :
    KeepsTwins a b (deliver code d row) := by
  intro s s' hs
  refine .unlessFaulted hs ?_
  have hen : s'.deliveryEnabled = s.deliveryEnabled := by obtain ⟨_, rfl⟩ := hs.eq; rfl
  rw [hen]
  split
  · exact h _ _ (hs.dispatched code d)
  · exact fun _ ht => nomatch ht

theorem Twins.issue (h : Twins a b s s') (ack sta sto : Bool) : Twins a b (s.issue ack sta sto) (s'.issue ack sta sto) :=
  h.map (·.issue ack sta sto) fun _ _ => rfl

theorem Twins.issueByte (h : Twins a b s s') (ack sta sto : Bool) (v : Byte) :
    Twins a b (s.issueByte ack sta sto v) (s'.issueByte ack sta sto v) :=
  h.map (·.issueByte ack sta sto v) fun _ _ => rfl

theorem Twins.withRole (h : Twins a b s s') (r : RoleState) : Twins a b { s with roleState := r } { s' with roleState := r } :=
  h.map ({ · with roleState := r }) fun _ _ => rfl

theorem Twins.withCursor (h : Twins a b s s') (c : Option Half) : Twins a b { s with cursor := c } { s' with cursor := c } :=
  h.map ({ · with cursor := c }) fun _ _ => rfl

theorem Twins.withMode (h : Twins a b s s') (m : TransferMode) :
    Twins a b { s with transferMode := m } { s' with transferMode := m } :=
  h.map ({ · with transferMode := m }) fun _ _ => rfl

theorem Twins.readPort (h : Twins a b s s') (r : PeriphReg) : Twins a b (s.readPort r) (s'.readPort r) :=
  h.map (·.readPort r) fun _ _ => rfl

/-! ## The policy oracle -/

/-- What two swapped lists answer to one slot: neither holds an answer, or both do, the same answer or a and b. -/
theorem takeAnswer_headSwapped (hab : SameAnswer a b) {l l' : List Answer} (h : HeadSwapped a b l l') (k : Slot) :
    (takeAnswer k l = none ∧ takeAnswer k l' = none) ∨
    ∃ x y m m', takeAnswer k l = some (x, m) ∧ takeAnswer k l' = some (y, m') ∧ SameAnswer x y ∧ HeadSwapped a b m m' := by
  obtain rfl | ⟨more, rfl, rfl⟩ := h
  · cases htake : takeAnswer k l with
    | none => exact .inl ⟨rfl, rfl⟩
    | some p => exact .inr ⟨p.1, p.1, p.2, p.2, rfl, rfl, .refl _, .inl rfl⟩
  · simp only [takeAnswer, ← hab.slot]
    split
    · exact .inr ⟨a, b, more, more, rfl, rfl, hab, .inl rfl⟩
    · cases takeAnswer k more with
      | none => exact .inl ⟨rfl, rfl⟩
      | some p => exact .inr ⟨p.1, p.1, a :: p.2, b :: p.2, rfl, rfl, .refl _, .inr ⟨p.2, rfl, rfl⟩⟩

theorem Twins.policyCall (hab : SameAnswer a b) (h : Twins a b s s') (c : Call) :
    SameAnswer (s.policyCall c).1 (s'.policyCall c).1 ∧ Twins a b (s.policyCall c).2 (s'.policyCall c).2 := by
  obtain ⟨left, rfl, hl⟩ := h
  rcases takeAnswer_headSwapped hab hl c.slot with ⟨h1, h2⟩ | ⟨x, y, m, m', h1, h2, hxy, hm⟩
  · simp only [State.policyCall, h1, h2]
    exact ⟨.refl _, left, rfl, hl⟩
  · simp only [State.policyCall, h1, h2]
    exact ⟨hxy, m', rfl, hm⟩

theorem Twins.consult (hab : SameAnswer a b) (h : Twins a b s s') (c : Call) (dflt : Byte) :
    SameAction (s.consult c dflt).1 (s'.consult c dflt).1 ∧ Twins a b (s.consult c dflt).2 (s'.consult c dflt).2 := by
  have hslots : s'.slots = s.slots := by obtain ⟨_, rfl⟩ := h.eq; rfl
  cases hp : s.slots.get c.slot with
  | false =>
    rw [State.consult_absent hp, State.consult_absent (hslots ▸ hp)]
    exact ⟨.refl _, h⟩
  | true =>
    rw [State.consult_present hp, State.consult_present (hslots ▸ hp)]
    obtain ⟨hans, ht⟩ := h.policyCall hab c
    exact ⟨hans.action, ht⟩

/-! ## The commands that read an action -/

theorem Twins.terminal (h : Twins a b s s') {x y : Byte} (hxy : SameAction x y) : Twins a b (s.terminal x) (s'.terminal y) := by
  have hrole : s'.roleState = s.roleState := by obtain ⟨_, rfl⟩ := h.eq; rfl
  simp only [State.terminal, terminalRole, hxy.start, hxy.stop, hrole]
  exact (h.issue _ _ _).withRole _

theorem Twins.arbLost (h : Twins a b s s') {x y : Byte} (hxy : SameAction x y) : Twins a b (s.arbLost x) (s'.arbLost y) := by
  simp only [State.arbLost, hxy.start]
  exact (h.issue _ _ _).withRole _

theorem Twins.resp (h : Twins a b s s') {x y : Byte} (hxy : SameAction x y) (hs : Bool) :
    Twins a b (s.resp x hs) (s'.resp y hs) := by
  simp only [State.resp, hxy.ack, hxy.start]
  exact h.issue _ _ _

theorem Twins.respByte (h : Twins a b s s') {x y : Byte} (hxy : SameAction x y) (hs : Bool) (v : Byte) :
    Twins a b (s.respByte x hs v) (s'.respByte y hs v) := by
  simp only [State.respByte, hxy.ack, hxy.start]
  exact h.issueByte _ _ _ _

/-- The state a consultation leaves does not depend on the default. -/
theorem State.consult_snd (s : State) (c : Call) (dflt : Byte) :
    (s.consult c dflt).2 = if s.slots.get c.slot then (s.policyCall c).2 else s := by
  unfold State.consult
  split <;> rfl

/-- A consultation answered by Resp, as most responder rows end. -/
theorem Twins.consult_resp (hab : SameAnswer a b) (h : Twins a b s s') (c : Call) (dflt : Byte) (hs : Bool) :
    TwinOutcomes a b (.next ((s.consult c dflt).2.resp (s.consult c dflt).1 hs))
      (.next ((s'.consult c dflt).2.resp (s'.consult c dflt).1 hs)) := by
  obtain ⟨hact, ht⟩ := h.consult hab c dflt
  exact .next (ht.resp hact hs)

/-! ## One lemma per row -/

theorem completion_keepsTwins (hab : SameAnswer a b) : KeepsTwins a b completion := by
  intro s s' h
  obtain ⟨left, rfl⟩ := h.eq
  refine .withField h s.lastEvent .lastEvent fun ev => ?_
  obtain ⟨hact, ht⟩ := h.consult hab (.onComplete ev) ACT_STOP
  exact .next (ht.terminal hact)

theorem sendNextOrComplete_keepsTwins (hab : SameAnswer a b) : KeepsTwins a b sendNextOrComplete := by
  intro s s' h
  obtain ⟨left, rfl⟩ := h.eq
  refine .withField h s.cursor .cursor fun c => .withField h s.length .length fun l => ?_
  split
  · refine .withField h s.bufferBase .bufferBase fun base => .memRead h _ fun v => ?_
    exact .next ((h.withCursor _).issueByte _ _ _ _)
  · exact completion_keepsTwins hab _ _ h

theorem nackPath_keepsTwins (hab : SameAnswer a b) : KeepsTwins a b nackPath := by
  intro s s' h
  obtain ⟨left, rfl⟩ := h.eq
  refine .withField h s.lastEvent .lastEvent fun ev => ?_
  obtain ⟨hact, ht⟩ := h.consult hab (.onNackOrArbitrationLoss ev) ACT_STOP
  simp only [hact.cont]
  split
  · exact sendNextOrComplete_keepsTwins hab _ _ ht
  · exact .next (ht.terminal hact)

theorem startRow_keepsTwins : KeepsTwins a b startRow := by
  intro s s' h
  obtain ⟨left, rfl⟩ := h.eq
  unfold startRow
  dsimp only
  split
  · exact .next h
  · exact .withField h s.targetAddress .targetAddress fun v => .next (h.issueByte _ _ _ _)

theorem arbLostRow_keepsTwins (hab : SameAnswer a b) (code : Byte) : KeepsTwins a b (arbLostRow code) := by
  intro s s' h
  obtain ⟨hact, ht⟩ := h.consult hab (.onNackOrArbitrationLoss code) 0x00#8
  exact .next (ht.arbLost hact)

theorem issueRxAck_keepsTwins : KeepsTwins a b issueRxAck := by
  intro s s' h
  obtain ⟨left, rfl⟩ := h.eq
  exact .withField h s.length .length fun l => .withField h s.cursor .cursor fun c => .next (h.issue _ _ _)

theorem storeReceived_keepsTwins {k : State → Out} (hk : KeepsTwins a b k) : KeepsTwins a b (storeReceived k) := by
  intro s s' h
  have hread := h.readPort .data
  obtain ⟨left, rfl⟩ := h.eq
  refine .withField hread s.cursor .cursor fun c => .withField hread s.length .length fun l => ?_
  split
  · refine .withField hread s.bufferBase .bufferBase fun base => .memWrite hread _ _ fun u u' hu => ?_
    exact hk _ _ (hu.withCursor _)
  · exact hk _ _ hread

theorem respAddrRx_keepsTwins (hab : SameAnswer a b) (code : Byte) : KeepsTwins a b (respAddrRx code) := by
  intro s s' h
  obtain ⟨left, rfl⟩ := h.eq
  exact ((h.withMode .responderReceive).readPort .data).consult_resp hab _ _ _

theorem respData_keepsTwins (hab : SameAnswer a b) (hs : Bool) (code : Byte) : KeepsTwins a b (respData hs code) := by
  intro s s' h
  obtain ⟨left, rfl⟩ := h.eq
  exact (h.readPort .data).consult_resp hab _ _ _

theorem byteRequested_keepsTwins (hab : SameAnswer a b) : KeepsTwins a b byteRequested := by
  intro s s' h
  obtain ⟨left, rfl⟩ := h.eq
  unfold byteRequested
  dsimp only
  split
  · obtain ⟨hans, ht⟩ := h.policyCall hab .onByteRequested
    rw [hans.out]
    exact .next (ht.respByte hans.action _ _)
  · exact .raise h _

theorem respAddrTx_keepsTwins (hab : SameAnswer a b) (loadsFirst : Bool) (code : Byte) :
    KeepsTwins a b (respAddrTx loadsFirst code) := by
  intro s s' h
  have hread := (h.withMode .responderTransmit).readPort .data
  obtain ⟨left, rfl⟩ := h.eq
  have hmatch := (hread.consult hab (.onAddressMatch (matchedAddress s.data) code) ACT_ACK).2
  rw [State.consult_snd, State.consult_snd] at hmatch
  cases loadsFirst with
  | true => exact byteRequested_keepsTwins hab _ _ hmatch
  | false => exact .next (hmatch.issue _ _ _)

theorem stopReceivedRow_keepsTwins (hab : SameAnswer a b) : KeepsTwins a b stopReceivedRow :=
  fun _ _ h => h.consult_resp hab _ _ _

theorem lastByte_keepsTwins (hab : SameAnswer a b) (code : Byte) : KeepsTwins a b (lastByte code) :=
  fun _ _ h => h.consult_resp hab _ _ _

theorem busErrorRow_keepsTwins : KeepsTwins a b busErrorRow :=
  fun _ _ h => .next ((h.issue _ _ _).withRole _)

/-- Every event is a delivery of its code and its row. -/
theorem exec_event_keepsTwins (hab : SameAnswer a b) {i : Instr} (hp : i.port = .event) : KeepsTwins a b (exec i) := by
  cases i with
  | busError d => exact busErrorRow_keepsTwins.deliver 0x00#8 d
  | start d => exact startRow_keepsTwins.deliver 0x08#8 d
  | repStart d => exact startRow_keepsTwins.deliver 0x10#8 d
  | mtSlaAck d => exact (sendNextOrComplete_keepsTwins hab).deliver 0x18#8 d
  | mtSlaNack d => exact (nackPath_keepsTwins hab).deliver 0x20#8 d
  | mtDataAck d => exact (sendNextOrComplete_keepsTwins hab).deliver 0x28#8 d
  | mtDataNack d => exact (nackPath_keepsTwins hab).deliver 0x30#8 d
  | arbLost d => exact (arbLostRow_keepsTwins hab 0x38#8).deliver 0x38#8 d
  | mrSlaAck d => exact issueRxAck_keepsTwins.deliver 0x40#8 d
  | mrSlaNack d => exact (nackPath_keepsTwins hab).deliver 0x48#8 d
  | mrDataAck d => exact (storeReceived_keepsTwins issueRxAck_keepsTwins).deliver 0x50#8 d
  | mrDataNack d => exact (storeReceived_keepsTwins (completion_keepsTwins hab)).deliver 0x58#8 d
  | srSlaAck d => exact (respAddrRx_keepsTwins hab 0x60#8).deliver 0x60#8 d
  | srArbLostSlaAck d => exact (respAddrRx_keepsTwins hab 0x68#8).deliver 0x68#8 d
  | srGcallAck d => exact (respAddrRx_keepsTwins hab 0x70#8).deliver 0x70#8 d
  | srArbLostGcallAck d => exact (respAddrRx_keepsTwins hab 0x78#8).deliver 0x78#8 d
  | srDataAck d => exact (respData_keepsTwins hab false 0x80#8).deliver 0x80#8 d
  | srDataNack d => exact (respData_keepsTwins hab true 0x88#8).deliver 0x88#8 d
  | srGcallDataAck d => exact (respData_keepsTwins hab false 0x90#8).deliver 0x90#8 d
  | srGcallDataNack d => exact (respData_keepsTwins hab true 0x98#8).deliver 0x98#8 d
  | srStop d => exact (stopReceivedRow_keepsTwins hab).deliver 0xA0#8 d
  | stSlaAck d => exact (respAddrTx_keepsTwins hab Config.stAddrLoadsFirstByte 0xA8#8).deliver 0xA8#8 d
  | stArbLostSlaAck d => exact (respAddrTx_keepsTwins hab Config.stAddrLoadsFirstByte 0xB0#8).deliver 0xB0#8 d
  | stDataAck d => exact (byteRequested_keepsTwins hab).deliver 0xB8#8 d
  | stDataNack d => exact (lastByte_keepsTwins hab 0xC0#8).deliver 0xC0#8 d
  | stLastData d => exact (lastByte_keepsTwins hab 0xC8#8).deliver 0xC8#8 d
  | initController _ _ _ _ => cases hp
  | initControllerRaw _ _ _ _ _ => cases hp
  | configureResponder _ _ _ _ _ _ _ _ => cases hp
  | reset => cases hp
  | shutDown => cases hp
  | stop => cases hp
  | transmit _ _ _ _ _ => cases hp
  | receive _ _ _ _ => cases hp

end Twins

/-- Settles O29: the two states are twins from the start, and every event keeps twins (`exec_event_keepsTwins`). -/
theorem actionBitsUnread : Obligations.ActionBitsUnread := by
  unfold Obligations.ActionBitsUnread
  intro s t i a b rest hp hslot hout hact h
  have hstart : Twins a b { s with answers := a :: rest } { s with answers := b :: rest } :=
    ⟨b :: rest, rfl, .inr ⟨rest, rfl, rfl⟩⟩
  obtain ⟨_, hrun, left, rfl, hl⟩ := exec_event_keepsTwins ⟨hslot, hout, hact⟩ hp _ _ hstart t h
  exact ⟨left, hrun, hl⟩

end Sys2Proof.Machine
end

section
/-! PROOF. shut_down twice (40_init_config.md R126). -/

namespace Sys2Proof.Machine

/-- What an accepted shut_down leaves (40_init_config.md R125). -/
def State.afterShutDown (s : State) : State :=
  ({ s with op := some (Op.plain 5#4), pullupEn := false, roleState := .uninitialized } : State).afterDisable.afterReturn resultOk

theorem exec_shutDown_ready {s : State} (hp : s.phase = .ready) (hf : s.faults = []) :
    exec .shutDown s = .next s.afterShutDown := by
  dsimp only [exec, execShutDown]
  rw [accept_ready hp hf, shutDownBody, State.writeCtrl_disable, State.returned_eq]
  rfl

/-- Of a ready state shut_down answers a next state only where no fault is recorded, and then the one above. -/
theorem exec_shutDown_next {s t : State} (hp : s.phase = .ready) (h : exec .shutDown s = .next t) :
    s.faults = [] ∧ t = s.afterShutDown := by
  have hf : s.faults = [] := by
    dsimp only [exec, execShutDown] at h
    rcases accept_next h with ⟨hn, _⟩ | ⟨_, hn, _⟩ | ⟨_, _, hf, _⟩
    · exact absurd hp hn
    · cases hn
    · exact hf
  rw [exec_shutDown_ready hp hf, Host.Outcome.next.injEq] at h
  exact ⟨hf, h.symm⟩

/-- Every field shut_down writes, but for the two records, it writes with a constant; so writing it again changes nothing. -/
theorem State.afterShutDown_twice (s : State) :
    { s.afterShutDown.afterShutDown with results := s.afterShutDown.results, portLog := s.afterShutDown.portLog } =
      s.afterShutDown := rfl

/-- Settles O34: the first shut_down leaves a ready state with no fault (`exec_shutDown_next`), so the second is accepted
too and writes the same constants (`State.afterShutDown_twice`). -/
theorem shutDownIdempotent : Obligations.ShutDownIdempotent := by
  unfold Obligations.ShutDownIdempotent
  intro s t hp h
  obtain ⟨hf, rfl⟩ := exec_shutDown_next hp h
  have hready : s.afterShutDown.phase = .ready := rfl
  have hclean : s.afterShutDown.faults = [] := hf
  exact ⟨s.afterShutDown.afterShutDown, exec_shutDown_ready hready hclean, rfl, s.afterShutDown_twice⟩

end Sys2Proof.Machine
end

section
/-! PROOF. The sequences that the event rows share, branch by branch: a consultation, the access to the buffer at the cursor,
the completion, the acknowledge of a received byte (41_dispatch_core.md R146 to R153, 42_controller_events.md R179). -/

namespace Sys2Proof.Machine

/-! ## Reads of a field that may be unwritten, accesses that are not admitted -/

theorem withField_written {α : Type} {v : Option α} {x : α} (h : v = some x) (f : Field) (s : State) (k : α → Out) :
    withField v f s k = k x := by rw [h, withField_some]

theorem withField_unwritten {α : Type} {v : Option α} {s : State} (h : v = none) (hf : s.faults = []) (f : Field)
    (k : α → Out) : withField v f s k = .next { s with faults := [.unwrittenRead f] } := by
  rw [h, withField_none, raise_clean hf]

theorem memRead_notAdmitted {a : Half} {s : State} (h : s.admitted a = false) (k : Byte → Out) :
    memRead a s k = .fault (.bufferNotAdmitted a) := by simp [memRead, h]

theorem memWrite_notAdmitted {a : Half} {s : State} (h : s.admitted a = false) (v : Byte) (k : State → Out) :
    memWrite a v s k = .fault (.bufferNotAdmitted a) := by simp [memWrite, h]

/-! ## Consultations -/

theorem State.consult_answered {s t : State} {c : Call} {a : Answer} (hp : s.slots.get c.slot = true)
    (hcall : s.policyCall c = (a, t)) (dflt : Byte) : s.consult c dflt = (a.action, t) := by
  rw [State.consult_present hp, hcall]

/-- `State.policyCall_frame` of a call whose answer has a name. -/
theorem State.policyCall_leaves {s t : State} {c : Call} {a : Answer} (hcall : s.policyCall c = (a, t)) :
    ∃ ans n, t = { s with answers := ans, freeCount := n, calls := s.calls ++ [c] } := by
  obtain ⟨ans, n, h⟩ := s.policyCall_frame c
  exact ⟨ans, n, by rw [← h, hcall]⟩

/-! ## The completion sequence -/

theorem State.terminal_stop (s : State) : s.terminal ACT_STOP = s.afterTerminal false true := s.terminal_eq ACT_STOP

theorem completion_absent {s : State} {ev : Byte} (he : s.lastEvent = some ev) (hp : s.slots.onComplete = false) :
    completion s = .next (s.afterTerminal false true) := by
  have hc := State.consult_absent (s := s) (c := .onComplete ev) hp ACT_STOP
  rw [completion, withField_written he, hc, ← State.terminal_stop]

theorem completion_answered {s t : State} {ev : Byte} {a : Answer} (he : s.lastEvent = some ev)
    (hp : s.slots.onComplete = true) (hcall : s.policyCall (.onComplete ev) = (a, t)) :
    completion s = .next (t.afterTerminal (a.action.getLsbD 2) (a.action.getLsbD 3)) := by
  have hc := State.consult_answered (c := .onComplete ev) hp hcall ACT_STOP
  rw [completion, withField_written he, hc]
  exact congrArg Host.Outcome.next (t.terminal_eq a.action)

/-! ## The buffer at the cursor -/

/-- What the sending of the next byte and the store of a received one share: the cursor is read, then the length, and only
with a slot left the base (41_dispatch_core.md R153, 42_controller_events.md R179). -/
def atCursor (s : State) (use : Half → Half → Out) (full : Out) : Out :=
  withField s.cursor .cursor s fun c =>
    withField s.length .length s fun l =>
      if c < l then withField s.bufferBase .bufferBase s fun base => use base c else full

theorem sendNextOrComplete_eq_atCursor (s : State) : sendNextOrComplete s =
    atCursor s (fun base c => memRead (base + c) s fun b =>
      .next ({ s with cursor := some (c + 1#16) }.issueByte true false false b)) (completion s) := rfl

theorem storeReceived_eq_atCursor (k : State → Out) (s : State) : storeReceived k s =
    atCursor s.afterDataRead (fun base c => memWrite (base + c) s.data s.afterDataRead fun u =>
      k { u with cursor := some (c + 1#16) }) (k s.afterDataRead) := rfl

section AtCursor

variable {s : State} {c l base : Half} {use : Half → Half → Out} {full : Out}

theorem atCursor_cursorUnwritten (hf : s.faults = []) (hc : s.cursor = none) :
    atCursor s use full = .next { s with faults := [.unwrittenRead .cursor] } :=
  withField_unwritten hc hf _ _

theorem atCursor_lengthUnwritten (hf : s.faults = []) (hc : s.cursor = some c) (hl : s.length = none) :
    atCursor s use full = .next { s with faults := [.unwrittenRead .length] } :=
  (withField_written hc _ _ _).trans (withField_unwritten hl hf _ _)

theorem atCursor_armed (hc : s.cursor = some c) (hl : s.length = some l) : atCursor s use full =
    if c < l then withField s.bufferBase .bufferBase s fun base => use base c else full :=
  (withField_written hc _ _ _).trans (withField_written hl _ _ _)

theorem atCursor_full (hc : s.cursor = some c) (hl : s.length = some l) (hle : l.toNat ≤ c.toNat) :
    atCursor s use full = full :=
  (atCursor_armed hc hl).trans (if_neg (Nat.not_lt.2 hle))

theorem atCursor_slotLeft (hc : s.cursor = some c) (hl : s.length = some l) (hlt : c.toNat < l.toNat) :
    atCursor s use full = withField s.bufferBase .bufferBase s fun base => use base c :=
  (atCursor_armed hc hl).trans (if_pos hlt)

theorem atCursor_baseUnwritten (hf : s.faults = []) (hc : s.cursor = some c) (hl : s.length = some l)
    (hlt : c.toNat < l.toNat) (hb : s.bufferBase = none) :
    atCursor s use full = .next { s with faults := [.unwrittenRead .bufferBase] } :=
  (atCursor_slotLeft hc hl hlt).trans (withField_unwritten hb hf _ _)

theorem atCursor_uses (hc : s.cursor = some c) (hl : s.length = some l) (hlt : c.toNat < l.toNat)
    (hb : s.bufferBase = some base) : atCursor s use full = use base c :=
  (atCursor_slotLeft hc hl hlt).trans (withField_written hb _ _ _)

end AtCursor

theorem sendNextOrComplete_noneLeft {s : State} {c l : Half} (hc : s.cursor = some c) (hl : s.length = some l)
    (hle : l.toNat ≤ c.toNat) : sendNextOrComplete s = completion s :=
  (sendNextOrComplete_eq_atCursor s).trans (atCursor_full hc hl hle)

theorem sendNextOrComplete_notAdmitted {s : State} {c l base : Half} (hc : s.cursor = some c) (hl : s.length = some l)
    (hlt : c.toNat < l.toNat) (hb : s.bufferBase = some base) (ha : s.admitted (base + c) = false) :
    sendNextOrComplete s = .fault (.bufferNotAdmitted (base + c)) :=
  (sendNextOrComplete_eq_atCursor s).trans ((atCursor_uses hc hl hlt hb).trans (memRead_notAdmitted ha _))

theorem sendNextOrComplete_sends {s : State} {c l base : Half} (hc : s.cursor = some c) (hl : s.length = some l)
    (hlt : c.toNat < l.toNat) (hb : s.bufferBase = some base) (ha : s.admitted (base + c) = true) :
    sendNextOrComplete s = .next ({ s with cursor := some (c + 1#16) }.afterByteCommand true false false
      (Memory.read s.mem (base + c).toNat)) := by
  rw [sendNextOrComplete_eq_atCursor, atCursor_uses hc hl hlt hb, memRead_admitted ha, State.issueByte_eq]

section StoreReceived

variable {s : State} {c l base : Half} {k : State → Out} (hc : s.cursor = some c) (hl : s.length = some l)
include hc hl

theorem storeReceived_noneLeft (hle : l.toNat ≤ c.toNat) : storeReceived k s = k s.afterDataRead :=
  (storeReceived_eq_atCursor k s).trans (atCursor_full hc hl hle)

theorem storeReceived_uses (hlt : c.toNat < l.toNat) (hb : s.bufferBase = some base) : storeReceived k s =
    memWrite (base + c) s.data s.afterDataRead fun u => k { u with cursor := some (c + 1#16) } :=
  (storeReceived_eq_atCursor k s).trans (atCursor_uses hc hl hlt hb)

theorem storeReceived_notAdmitted (hlt : c.toNat < l.toNat) (hb : s.bufferBase = some base)
    (ha : s.admitted (base + c) = false) : storeReceived k s = .fault (.bufferNotAdmitted (base + c)) :=
  (storeReceived_uses hc hl hlt hb).trans (memWrite_notAdmitted (s := s.afterDataRead) ha _ _)

theorem storeReceived_stores (hlt : c.toNat < l.toNat) (hb : s.bufferBase = some base)
    (ha : s.admitted (base + c) = true) : storeReceived k s =
    k { s.afterDataRead with mem := Memory.write s.mem (base + c).toNat s.data, cursor := some (c + 1#16) } :=
  (storeReceived_uses hc hl hlt hb).trans (memWrite_admitted (s := s.afterDataRead) ha _)

end StoreReceived

/-! ## The acknowledge of a received byte -/

theorem issueRxAck_armed {s : State} {c l : Half} (hc : s.cursor = some c) (hl : s.length = some l) :
    issueRxAck s = .next (s.afterCommand (decide (2 ≤ (l - c).toNat)) false false) := by
  rw [issueRxAck, withRxAck, withField_written hl, withField_written hc, State.issue_eq, rxAckOf]

end Sys2Proof.Machine
end

section
/-! PROOF. The rows that a NACK, an arbitration loss and a received byte run (41_dispatch_core.md R148, R152,
42_controller_events.md R173 to R179). -/

namespace Sys2Proof.Machine

/-! ## NACK -/

theorem exec_nack {i : Instr} {code d : Byte} {s : State}
    (hi : (i, code) ∈ [(Instr.mtSlaNack d, 0x20#8), (Instr.mtDataNack d, 0x30#8), (Instr.mrSlaNack d, 0x48#8)])
    (hen : s.deliveryEnabled = true) : exec i s = nackPath (s.afterReport code d) := by
  simp only [List.mem_cons, Prod.mk.injEq, List.not_mem_nil, or_false] at hi
  obtain ⟨rfl, rfl⟩ | ⟨rfl, rfl⟩ | ⟨rfl, rfl⟩ := hi
  · exact deliver_enabled hen rfl d nackPath
  · exact deliver_enabled hen rfl d nackPath
  · exact deliver_enabled hen rfl d nackPath

section NackPath

variable {s t : State} {ev : Byte} {a : Answer} (he : s.lastEvent = some ev)
include he

theorem nackPath_absent (hp : s.slots.onNackOrArbitrationLoss = false) :
    nackPath s = .next (s.afterTerminal false true) := by
  have hc := State.consult_absent (s := s) (c := .onNackOrArbitrationLoss ev) hp ACT_STOP
  rw [nackPath, withField_written he, hc]
  have hcont : ¬actCont ACT_STOP = true := by decide
  exact (if_neg hcont).trans (congrArg Host.Outcome.next s.terminal_stop)

theorem nackPath_answered (hp : s.slots.onNackOrArbitrationLoss = true)
    (hcall : s.policyCall (.onNackOrArbitrationLoss ev) = (a, t)) :
    nackPath s = if actCont a.action then sendNextOrComplete t else .next (t.terminal a.action) := by
  have hc := State.consult_answered (c := .onNackOrArbitrationLoss ev) hp hcall ACT_STOP
  rw [nackPath, withField_written he, hc]

theorem nackPath_ends (hp : s.slots.onNackOrArbitrationLoss = true)
    (hcall : s.policyCall (.onNackOrArbitrationLoss ev) = (a, t)) (hcont : a.action.getLsbD 4 = false) :
    nackPath s = .next (t.afterTerminal (a.action.getLsbD 2) (a.action.getLsbD 3)) := by
  have hcont : ¬actCont a.action = true := Bool.eq_false_iff.1 hcont
  rw [nackPath_answered he hp hcall, if_neg hcont, State.terminal_eq, actStart, actStop]

theorem nackPath_continues (hp : s.slots.onNackOrArbitrationLoss = true)
    (hcall : s.policyCall (.onNackOrArbitrationLoss ev) = (a, t)) (hcont : a.action.getLsbD 4 = true) :
    nackPath s = sendNextOrComplete t :=
  (nackPath_answered he hp hcall).trans (if_pos hcont)

end NackPath

/-- Settles O16: all three rows are `nackPath`; without CONT the answer's START and STOP end it, and with CONT it is
`sendNextOrComplete` in the state the call leaves, which has the transfer fields and the memory of s. -/
theorem nackRow : Obligations.NackRow := by
  unfold Obligations.NackRow
  rintro s u d i code hi hen rfl
  have hf : s.faults = [] := State.faults_of_enabled hen
  have he : (s.afterReport code d).lastEvent = some code := rfl
  rw [exec_nack hi hen]
  refine ⟨nackPath_absent he, fun a v hp hcall => ⟨nackPath_ends he hp hcall, fun hcont => ?_⟩⟩
  rw [nackPath_continues he hp hcall hcont]
  obtain ⟨ans, n, rfl⟩ := State.policyCall_leaves hcall
  refine ⟨fun hc => ?_, fun c hc hl => ?_, fun c l hc hl hlt => ⟨fun hb => ?_, fun base hb ha => ?_, fun base hb ha => ?_⟩,
    fun c l hc hl hle => ?_⟩
  · exact (sendNextOrComplete_eq_atCursor _).trans (atCursor_cursorUnwritten hf hc)
  · exact (sendNextOrComplete_eq_atCursor _).trans (atCursor_lengthUnwritten hf hc hl)
  · exact (sendNextOrComplete_eq_atCursor _).trans (atCursor_baseUnwritten hf hc hl hlt hb)
  · exact sendNextOrComplete_notAdmitted hc hl hlt hb ha
  · exact sendNextOrComplete_sends hc hl hlt hb ha
  · exact ⟨fun hp => Eq.trans (sendNextOrComplete_noneLeft hc hl hle) (completion_absent he hp),
      fun b t hp hdone => Eq.trans (sendNextOrComplete_noneLeft hc hl hle) (completion_answered he hp hdone)⟩

/-! ## Arbitration loss -/

theorem State.arbLost_eq (s : State) (a : Byte) : s.arbLost a =
    { s.afterCommand true (a.getLsbD 2) false with
      roleState := if a.getLsbD 2 then .repeatedStartPending else .idle } := by
  rw [State.arbLost, State.issue_eq, actStart]

theorem arbLostRow_absent {s : State} (hp : s.slots.onNackOrArbitrationLoss = false) (code : Byte) :
    arbLostRow code s = .next { s.afterCommand true false false with roleState := .idle } := by
  have hc := State.consult_absent (s := s) (c := .onNackOrArbitrationLoss code) hp 0x00#8
  rw [arbLostRow, hc]
  exact congrArg Host.Outcome.next (s.arbLost_eq 0x00#8)

theorem arbLostRow_answered {s t : State} {code : Byte} {a : Answer} (hp : s.slots.onNackOrArbitrationLoss = true)
    (hcall : s.policyCall (.onNackOrArbitrationLoss code) = (a, t)) :
    arbLostRow code s = .next { t.afterCommand true (a.action.getLsbD 2) false with
      roleState := if a.action.getLsbD 2 then .repeatedStartPending else .idle } := by
  have hc := State.consult_answered (c := .onNackOrArbitrationLoss code) hp hcall 0x00#8
  rw [arbLostRow, hc]
  exact congrArg Host.Outcome.next (t.arbLost_eq a.action)

/-- Settles O17: both clauses are ArbLost(A), of the answer or of the default 0 (R145), which has no START. -/
theorem arbitrationLost : Obligations.ArbitrationLost := by
  unfold Obligations.ArbitrationLost
  intro s d hen
  have hrow : exec (.arbLost d) s = arbLostRow 0x38#8 (s.afterReport 0x38#8 d) := deliver_enabled hen rfl d _
  rw [hrow]
  exact ⟨fun hp => arbLostRow_absent (s := s.afterReport 0x38#8 d) hp _,
    fun a t hp => arbLostRow_answered (s := s.afterReport 0x38#8 d) hp⟩

/-! ## A received byte -/

/-- Settles O19: the row is a store at the cursor, then RxAck() on the cursor that the store leaves. -/
theorem receivedByteStored : Obligations.ReceivedByteStored := by
  unfold Obligations.ReceivedByteStored
  rintro s u d hen rfl
  have hf : s.faults = [] := State.faults_of_enabled hen
  have hrow : exec (.mrDataAck d) s = storeReceived issueRxAck (s.afterReport 0x50#8 d) := deliver_enabled hen rfl d _
  rw [hrow]
  refine ⟨fun hc => ?_, fun c hc hl => ?_, fun c l hc hl hlt => ⟨fun hb => ?_, fun base hb ha => ?_, fun base hb ha => ?_⟩,
    fun c l hc hl hle => ?_⟩
  · exact (storeReceived_eq_atCursor _ _).trans (atCursor_cursorUnwritten hf hc)
  · exact (storeReceived_eq_atCursor _ _).trans (atCursor_lengthUnwritten hf hc hl)
  · exact (storeReceived_eq_atCursor _ _).trans (atCursor_baseUnwritten hf hc hl hlt hb)
  · exact storeReceived_notAdmitted hc hl hlt hb ha
  · exact Eq.trans (storeReceived_stores hc hl hlt hb ha) (issueRxAck_armed rfl hl)
  · exact Eq.trans (storeReceived_noneLeft hc hl hle) (issueRxAck_armed hc hl)

end Sys2Proof.Machine
end

section
/-! PROOF. The defaults: what each row does where every callback is absent (41_dispatch_core.md R145). -/

namespace Sys2Proof.Machine

/-- The step from s answers a state whose last port access is the command v, and it called no callback. -/
def EndsUncalled (s : State) (v : Byte) (o : Out) : Prop :=
  ∃ t, o = .next t ∧ t.portLog.getLast? = some (.write .ctrl v) ∧ t.calls = s.calls

/-- A row does this in every state with no callback and with its event recorded. -/
def DefaultCommand (row : State → Out) (v : Byte) : Prop :=
  ∀ s ev, s.slots = SlotBits.absent → s.lastEvent = some ev → EndsUncalled s v (row s)

/-- A row records MissingByteRequested in every state with no callback and no fault. -/
def DefaultFault (row : State → Out) : Prop :=
  ∀ s, s.slots = SlotBits.absent → s.faults = [] → ∃ t, row s = .next t ∧ t.faults = [.missingByteRequested]

theorem afterCommand_endsUncalled (s : State) (ack sta sto : Bool) (role : RoleState) :
    EndsUncalled s (cmd ack sta sto) (.next { s.afterCommand ack sta sto with roleState := role }) :=
  ⟨_, rfl, List.getLast?_concat, rfl⟩

theorem consult_allAbsent {s : State} (habs : s.slots = SlotBits.absent) (c : Call) (dflt : Byte) :
    s.consult c dflt = (dflt, s) :=
  State.consult_absent (by rw [habs]; cases c <;> rfl) dflt

/-- The responder rows consult one callback and answer with Resp(A, hs); the defaults have no START. -/
theorem consult_resp_endsUncalled {s : State} (habs : s.slots = SlotBits.absent) (c : Call) (dflt : Byte) (hs : Bool)
    (hsta : actStart dflt = false) :
    EndsUncalled s (cmd (actAck dflt) false false) (.next ((s.consult c dflt).2.resp (s.consult c dflt).1 hs)) := by
  rw [consult_allAbsent habs, State.resp, hsta, Bool.and_false, State.issue_eq]
  exact afterCommand_endsUncalled s _ _ _ s.roleState

/-! ## One lemma per row -/

theorem nackPath_default : DefaultCommand nackPath 0xD5#8 := by
  intro s ev habs he
  rw [nackPath_absent he (by rw [habs]; rfl)]
  exact afterCommand_endsUncalled s true false true _

theorem completion_default : DefaultCommand completion 0xD5#8 := by
  intro s ev habs he
  rw [completion_absent he (by rw [habs]; rfl)]
  exact afterCommand_endsUncalled s true false true _

theorem arbLostRow_default (code : Byte) : DefaultCommand (arbLostRow code) 0xC5#8 := by
  intro s ev habs _
  rw [arbLostRow_absent (by rw [habs]; rfl)]
  exact afterCommand_endsUncalled s true false false .idle

theorem respAddrRx_default (code : Byte) : DefaultCommand (respAddrRx code) 0xC5#8 := by
  intro s ev habs _
  exact consult_resp_endsUncalled (s := { s with transferMode := .responderReceive }.readPort .data) habs _ ACT_ACK false rfl

theorem respData_default (hs : Bool) (code : Byte) : DefaultCommand (respData hs code) 0x85#8 := by
  intro s ev habs _
  exact consult_resp_endsUncalled (s := s.readPort .data) habs _ ACT_NACK hs rfl

theorem stopReceivedRow_default : DefaultCommand stopReceivedRow 0xC5#8 :=
  fun _ _ habs _ => consult_resp_endsUncalled habs _ ACT_ACK true rfl

theorem lastByte_default (code : Byte) : DefaultCommand (lastByte code) 0xC5#8 :=
  fun _ _ habs _ => consult_resp_endsUncalled habs _ ACT_ACK true rfl

theorem byteRequested_default : DefaultFault byteRequested := by
  intro s habs hf
  have hp : ¬s.slots.get .onByteRequested = true := by rw [habs]; decide
  rw [byteRequested, if_neg hp, raise_clean hf]
  exact ⟨_, rfl, rfl⟩

/-- With on_address_match absent the row goes on from the mode and the reading of DATA to the byte request. -/
theorem respAddrTx_default (code : Byte) : DefaultFault (respAddrTx true code) := by
  intro s habs hf
  have hp : ¬({ s with transferMode := .responderTransmit }.readPort .data).slots.get .onAddressMatch = true := by
    rw [State.readPort_slots, habs]; decide
  have hrow : respAddrTx true code s = byteRequested ({ s with transferMode := .responderTransmit }.readPort .data) :=
    congrArg byteRequested (if_neg hp)
  rw [hrow]
  exact byteRequested_default _ habs hf

/-! ## Deliveries -/

section Delivery

variable {s : State} {code : Byte} (hen : s.deliveryEnabled = true) (habs : s.slots = SlotBits.absent)
  (hcode : code &&& 0xF8#8 = code) (d : Byte)
include hen habs hcode

/-- The report calls no callback and records the event, so the delivery does what its row does. -/
theorem DefaultCommand.deliver {row : State → Out} {v : Byte} (h : DefaultCommand row v) :
    EndsUncalled s v (deliver code d row s) := by
  rw [deliver_enabled hen hcode]
  exact h (s.afterReport code d) code habs rfl

theorem DefaultFault.deliver {row : State → Out} (h : DefaultFault row) :
    ∃ t, deliver code d row s = .next t ∧ t.faults = [.missingByteRequested] := by
  rw [deliver_enabled hen hcode]
  exact h (s.afterReport code d) habs (State.faults_of_enabled (s := s) hen)

/-- A row that has come to the completion sequence, having read DATA or not. -/
theorem completes_endsUncalled {row : State → Out} {u : State} (hrow : row (s.afterReport code d) = completion u)
    (hu : u = s.afterReport code d ∨ u = (s.afterReport code d).afterDataRead) : EndsUncalled s 0xD5#8 (deliver code d row s) := by
  rw [deliver_enabled hen hcode, hrow]
  obtain rfl | rfl := hu
  · exact completion_default _ code habs rfl
  · exact completion_default _ code habs rfl

end Delivery

/-- Settles O28: with no callback each row ends with its default's command (`DefaultCommand`), and where no byte is left
the three rows of the buffer are the completion sequence. -/
theorem defaultCommands : Obligations.DefaultCommands := by
  unfold Obligations.DefaultCommands
  intro s d hen habs
  refine ⟨fun i v hi => ?_, fun i c l hi hc hl hle => ?_, fun i hi => ?_⟩
  · simp only [List.mem_cons, Prod.mk.injEq, List.not_mem_nil, or_false] at hi
    obtain ⟨rfl, rfl⟩ | ⟨rfl, rfl⟩ | ⟨rfl, rfl⟩ | ⟨rfl, rfl⟩ | ⟨rfl, rfl⟩ | ⟨rfl, rfl⟩ | ⟨rfl, rfl⟩ | ⟨rfl, rfl⟩ |
      ⟨rfl, rfl⟩ | ⟨rfl, rfl⟩ | ⟨rfl, rfl⟩ | ⟨rfl, rfl⟩ | ⟨rfl, rfl⟩ | ⟨rfl, rfl⟩ | ⟨rfl, rfl⟩ := hi
    · exact nackPath_default.deliver hen habs (code := 0x20#8) rfl d
    · exact nackPath_default.deliver hen habs (code := 0x30#8) rfl d
    · exact nackPath_default.deliver hen habs (code := 0x48#8) rfl d
    · exact (arbLostRow_default 0x38#8).deliver hen habs rfl d
    · exact (respAddrRx_default 0x60#8).deliver hen habs rfl d
    · exact (respAddrRx_default 0x68#8).deliver hen habs rfl d
    · exact (respAddrRx_default 0x70#8).deliver hen habs rfl d
    · exact (respAddrRx_default 0x78#8).deliver hen habs rfl d
    · exact (respData_default false 0x80#8).deliver hen habs rfl d
    · exact (respData_default true 0x88#8).deliver hen habs rfl d
    · exact (respData_default false 0x90#8).deliver hen habs rfl d
    · exact (respData_default true 0x98#8).deliver hen habs rfl d
    · exact stopReceivedRow_default.deliver hen habs (code := 0xA0#8) rfl d
    · exact (lastByte_default 0xC0#8).deliver hen habs rfl d
    · exact (lastByte_default 0xC8#8).deliver hen habs rfl d
  · simp only [List.mem_cons, List.not_mem_nil, or_false] at hi
    obtain rfl | rfl | rfl := hi
    · exact completes_endsUncalled hen habs (code := 0x18#8) rfl d (sendNextOrComplete_noneLeft hc hl hle) (.inl rfl)
    · exact completes_endsUncalled hen habs (code := 0x28#8) rfl d (sendNextOrComplete_noneLeft hc hl hle) (.inl rfl)
    · exact completes_endsUncalled hen habs (code := 0x58#8) rfl d (storeReceived_noneLeft hc hl hle) (.inr rfl)
  · simp only [List.mem_cons, List.not_mem_nil, or_false] at hi
    obtain rfl | rfl | rfl := hi
    · exact (respAddrTx_default 0xA8#8).deliver hen habs rfl d
    · exact (respAddrTx_default 0xB0#8).deliver hen habs rfl d
    · exact byteRequested_default.deliver hen habs (code := 0xB8#8) rfl d

end Sys2Proof.Machine
end

section
/-! PROOF. The rows that a START, an acknowledge and the final received byte run (41_dispatch_core.md R151, R153,
42_controller_events.md R170 to R174, R180). -/

namespace Sys2Proof.Machine

/-! ## START -/

theorem exec_start {i : Instr} {code d : Byte} {s : State}
    (hi : (i, code) ∈ [(Instr.start d, 0x08#8), (Instr.repStart d, 0x10#8)]) (hen : s.deliveryEnabled = true) :
    exec i s = startRow (s.afterReport code d) := by
  simp only [List.mem_cons, Prod.mk.injEq, List.not_mem_nil, or_false] at hi
  obtain ⟨rfl, rfl⟩ | ⟨rfl, rfl⟩ := hi
  · exact deliver_enabled hen rfl d startRow
  · exact deliver_enabled hen rfl d startRow

section StartRow

variable {s : State}

theorem startRow_held (hr : s.roleState = .repeatedStartPending) : startRow s = .next s := if_pos hr

theorem startRow_addresses (hr : s.roleState ≠ .repeatedStartPending) {a : Byte} (ha : s.targetAddress = some a) :
    startRow s = .next (s.afterByteCommand true false false a) := by
  rw [startRow, if_neg hr, withField_written ha, State.issueByte_eq]

theorem startRow_unarmed (hf : s.faults = []) (hr : s.roleState ≠ .repeatedStartPending) (ha : s.targetAddress = none) :
    startRow s = .next { s with faults := [.unwrittenRead .targetAddress] } :=
  (if_neg hr).trans (withField_unwritten ha hf _ _)

end StartRow

/-- Settles O14: in RepeatedStartPending the row is the state after the report, elsewhere one read of target_address. (The
name `startRow` is the model's row.) -/
theorem startRow_holds_or_addresses : Obligations.StartRow := by
  unfold Obligations.StartRow
  intro s d i code hi hen
  have hf : s.faults = [] := State.faults_of_enabled hen
  rw [exec_start hi hen]
  exact ⟨fun hr => startRow_held (s := s.afterReport code d) hr,
    fun a hr ha => startRow_addresses (s := s.afterReport code d) hr ha,
    fun hr ha => startRow_unarmed (s := s.afterReport code d) hf hr ha⟩

/-! ## The end of a transfer -/

/-- What a row does that has come to the completion sequence in the state v. -/
theorem completes_terminal {v : State} {ev : Byte} {o : Out} (ho : o = completion v) (he : v.lastEvent = some ev) :
    (v.slots.onComplete = false → o = .next (v.afterTerminal false true)) ∧
    (∀ a t, v.slots.onComplete = true → v.policyCall (.onComplete ev) = (a, t) →
      o = .next (t.afterTerminal (a.action.getLsbD 2) (a.action.getLsbD 3))) :=
  ⟨fun hp => ho.trans (completion_absent he hp), fun _ _ hp hcall => ho.trans (completion_answered he hp hcall)⟩

/-! ## ACK -/

theorem exec_ack {i : Instr} {code d : Byte} {s : State}
    (hi : (i, code) ∈ [(Instr.mtSlaAck d, 0x18#8), (Instr.mtDataAck d, 0x28#8)]) (hen : s.deliveryEnabled = true) :
    exec i s = sendNextOrComplete (s.afterReport code d) := by
  simp only [List.mem_cons, Prod.mk.injEq, List.not_mem_nil, or_false] at hi
  obtain ⟨rfl, rfl⟩ | ⟨rfl, rfl⟩ := hi
  · exact deliver_enabled hen rfl d sendNextOrComplete
  · exact deliver_enabled hen rfl d sendNextOrComplete

/-- Settles O15: both rows are `sendNextOrComplete` in the state after the report, which has the transfer fields and the
memory of s. -/
theorem ackRow : Obligations.AckRow := by
  unfold Obligations.AckRow
  rintro s u d i code hi hen rfl
  have hf : s.faults = [] := State.faults_of_enabled hen
  rw [exec_ack hi hen]
  refine ⟨fun hc => ?_, fun c hc hl => ?_, fun c l hc hl hlt => ⟨fun hb => ?_, fun base hb ha => ?_, fun base hb ha => ?_⟩,
    fun c l hc hl hle => ?_⟩
  · exact (sendNextOrComplete_eq_atCursor _).trans (atCursor_cursorUnwritten hf hc)
  · exact (sendNextOrComplete_eq_atCursor _).trans (atCursor_lengthUnwritten hf hc hl)
  · exact (sendNextOrComplete_eq_atCursor _).trans (atCursor_baseUnwritten hf hc hl hlt hb)
  · exact sendNextOrComplete_notAdmitted hc hl hlt hb ha
  · exact sendNextOrComplete_sends hc hl hlt hb ha
  · exact completes_terminal (sendNextOrComplete_noneLeft (s := s.afterReport code d) hc hl hle) rfl

/-! ## The final received byte -/

/-- Settles O20: the row is a store at the cursor, then the completion sequence in the state v that the store or the drop
leaves, which has the callbacks and the event of the report. -/
theorem finalByteStored : Obligations.FinalByteStored := by
  unfold Obligations.FinalByteStored
  rintro s u d hen rfl
  have hf : s.faults = [] := State.faults_of_enabled hen
  have hrow : exec (.mrDataNack d) s = storeReceived completion (s.afterReport 0x58#8 d) := deliver_enabled hen rfl d _
  rw [hrow]
  refine ⟨fun hc => ?_, fun c hc hl => ?_, fun c l hc hl hlt hb => ?_, fun c l base hc hl hlt hb ha => ?_,
    fun c l v hc hl hv => ?_⟩
  · exact (storeReceived_eq_atCursor _ _).trans (atCursor_cursorUnwritten hf hc)
  · exact (storeReceived_eq_atCursor _ _).trans (atCursor_lengthUnwritten hf hc hl)
  · exact (storeReceived_eq_atCursor _ _).trans (atCursor_baseUnwritten hf hc hl hlt hb)
  · exact storeReceived_notAdmitted hc hl hlt hb ha
  · obtain ⟨base, hlt, hb, ha, rfl⟩ | ⟨hle, rfl⟩ := hv
    · exact completes_terminal (storeReceived_stores (s := s.afterReport 0x58#8 d) hc hl hlt hb ha) rfl
    · exact completes_terminal (storeReceived_noneLeft (s := s.afterReport 0x58#8 d) hc hl hle) rfl

end Sys2Proof.Machine
end

section
/-! PROOF. The responder rows and the bus error (43_responder_events.md R190 to R214). Most responder rows are one
consultation answered by Resp(A, hs); a byte request sends the callback's byte or faults. -/

namespace Sys2Proof.Machine

/-! ## A consultation answered by Resp -/

theorem State.resp_eq (s : State) (a : Byte) (hs : Bool) :
    s.resp a hs = s.afterCommand (a.getLsbD 0) (hs && a.getLsbD 2) false := by
  rw [State.resp, State.issue_eq, actAck, actStart]

/-- Decide(k, args, dflt), then Resp(A, hs) of what it decided (41_dispatch_core.md R146, R149). -/
def consultResp (c : Call) (dflt : Byte) (hs : Bool) (s : State) : Out :=
  .next ((s.consult c dflt).2.resp (s.consult c dflt).1 hs)

theorem respAddrRx_eq_consultResp (code : Byte) (s : State) : respAddrRx code s =
    consultResp (.onAddressMatch (matchedAddress s.data) code) ACT_ACK false
      (State.afterDataRead { s with transferMode := .responderReceive }) := rfl

theorem respData_eq_consultResp (hs : Bool) (code : Byte) (s : State) :
    respData hs code s = consultResp (.onByteReceived s.data code) ACT_NACK hs s.afterDataRead := rfl

theorem stopReceivedRow_eq_consultResp : stopReceivedRow = consultResp .onStopReceived ACT_ACK true := rfl

theorem lastByte_eq_consultResp (code : Byte) : lastByte code = consultResp (.onLastByte code) ACT_ACK true := rfl

section ConsultResp

variable {s : State} {c : Call} {dflt : Byte} {hs : Bool}

theorem consultResp_absent (hp : s.slots.get c.slot = false) :
    consultResp c dflt hs s = .next (s.afterCommand (dflt.getLsbD 0) (hs && dflt.getLsbD 2) false) := by
  rw [consultResp, State.consult_absent hp, State.resp_eq]

theorem consultResp_answered {t : State} {a : Answer} (hp : s.slots.get c.slot = true) (hcall : s.policyCall c = (a, t)) :
    consultResp c dflt hs s = .next (t.afterCommand (a.action.getLsbD 0) (hs && a.action.getLsbD 2) false) := by
  rw [consultResp, State.consult_answered hp hcall, State.resp_eq]

end ConsultResp

/-! ## A byte request -/

theorem byteRequested_answered {s t : State} {a : Answer} (hp : s.slots.onByteRequested = true)
    (hcall : s.policyCall .onByteRequested = (a, t)) :
    byteRequested s = .next (t.afterByteCommand (a.action.getLsbD 0) false false a.out) := by
  have hrow : byteRequested s = .next ((s.policyCall .onByteRequested).2.respByte
      (s.policyCall .onByteRequested).1.action false (s.policyCall .onByteRequested).1.out) := if_pos hp
  rw [hrow, hcall, State.respByte, State.issueByte_eq, actAck, Bool.false_and]

theorem byteRequested_absent {s : State} (hf : s.faults = []) (hp : s.slots.onByteRequested = false) :
    byteRequested s = .next { s with faults := [.missingByteRequested] } := by
  have hp : ¬s.slots.get .onByteRequested = true := Bool.eq_false_iff.1 hp
  rw [byteRequested, if_neg hp, raise_clean hf]

/-- The state in which a transmit address match requests its first byte: the mode is set, DATA read, on_address_match
called. Only what the consultation leaves is taken; its answer, hence its default, is not read (R193). -/
def State.matchedTx (s : State) (code : Byte) : State :=
  ((State.afterDataRead { s with transferMode := .responderTransmit }).consult
    (.onAddressMatch (matchedAddress s.data) code) ACT_ACK).2

theorem State.matchedTx_eq (s : State) (code : Byte) : s.matchedTx code =
    if s.slots.onAddressMatch then
      ((State.afterDataRead { s with transferMode := .responderTransmit }).policyCall
        (.onAddressMatch (matchedAddress s.data) code)).2
    else State.afterDataRead { s with transferMode := .responderTransmit } :=
  State.consult_snd _ _ _

theorem respAddrTx_eq (loadsFirst : Bool) (code : Byte) (s : State) : respAddrTx loadsFirst code s =
    if loadsFirst then byteRequested (s.matchedTx code) else .next ((s.matchedTx code).afterCommand true false false) := by
  rw [State.matchedTx_eq, ← State.issue_eq]
  rfl

theorem State.matchedTx_slots_faults (s : State) (code : Byte) :
    (s.matchedTx code).slots = s.slots ∧ (s.matchedTx code).faults = s.faults := by
  obtain ⟨_, _, _, h⟩ := (State.afterDataRead { s with transferMode := .responderTransmit }).consult_frame
    (.onAddressMatch (matchedAddress s.data) code) ACT_ACK
  rw [State.matchedTx, h]
  exact ⟨rfl, rfl⟩

/-! ## The rows of the events -/

theorem exec_receiveMatch {i : Instr} {code d : Byte} {s : State}
    (hi : (i, code) ∈ [(Instr.srSlaAck d, 0x60#8), (Instr.srArbLostSlaAck d, 0x68#8), (Instr.srGcallAck d, 0x70#8),
      (Instr.srArbLostGcallAck d, 0x78#8)])
    (hen : s.deliveryEnabled = true) : exec i s = respAddrRx code (s.afterReport code d) := by
  simp only [List.mem_cons, Prod.mk.injEq, List.not_mem_nil, or_false] at hi
  obtain ⟨rfl, rfl⟩ | ⟨rfl, rfl⟩ | ⟨rfl, rfl⟩ | ⟨rfl, rfl⟩ := hi
  · exact deliver_enabled hen rfl d _
  · exact deliver_enabled hen rfl d _
  · exact deliver_enabled hen rfl d _
  · exact deliver_enabled hen rfl d _

theorem exec_byteReceived {i : Instr} {code d : Byte} {hs : Bool} {s : State}
    (hi : (i, code, hs) ∈ [(Instr.srDataAck d, 0x80#8, false), (Instr.srGcallDataAck d, 0x90#8, false),
      (Instr.srDataNack d, 0x88#8, true), (Instr.srGcallDataNack d, 0x98#8, true)])
    (hen : s.deliveryEnabled = true) : exec i s = respData hs code (s.afterReport code d) := by
  simp only [List.mem_cons, Prod.mk.injEq, List.not_mem_nil, or_false] at hi
  obtain ⟨rfl, rfl, rfl⟩ | ⟨rfl, rfl, rfl⟩ | ⟨rfl, rfl, rfl⟩ | ⟨rfl, rfl, rfl⟩ := hi
  · exact deliver_enabled hen rfl d _
  · exact deliver_enabled hen rfl d _
  · exact deliver_enabled hen rfl d _
  · exact deliver_enabled hen rfl d _

theorem exec_transmitMatch {i : Instr} {code d : Byte} {s : State}
    (hi : (i, code) ∈ [(Instr.stSlaAck d, 0xA8#8), (Instr.stArbLostSlaAck d, 0xB0#8)]) (hen : s.deliveryEnabled = true) :
    exec i s = respAddrTx true code (s.afterReport code d) := by
  simp only [List.mem_cons, Prod.mk.injEq, List.not_mem_nil, or_false] at hi
  obtain ⟨rfl, rfl⟩ | ⟨rfl, rfl⟩ := hi
  · exact deliver_enabled hen rfl d _
  · exact deliver_enabled hen rfl d _

theorem exec_lastByte {i : Instr} {code d : Byte} {s : State}
    (hi : (i, code) ∈ [(Instr.stDataNack d, 0xC0#8), (Instr.stLastData d, 0xC8#8)]) (hen : s.deliveryEnabled = true) :
    exec i s = lastByte code (s.afterReport code d) := by
  simp only [List.mem_cons, Prod.mk.injEq, List.not_mem_nil, or_false] at hi
  obtain ⟨rfl, rfl⟩ | ⟨rfl, rfl⟩ := hi
  · exact deliver_enabled hen rfl d _
  · exact deliver_enabled hen rfl d _

/-! ## The statements, row by row -/

/-- Settles O21: the four rows are one consultation of on_address_match, by default ACT_ACK, after the mode is set and
DATA read; START is not honoured. -/
theorem receiveAddressMatched : Obligations.ReceiveAddressMatched := by
  unfold Obligations.ReceiveAddressMatched
  rintro s t d i code hi hen rfl
  rw [exec_receiveMatch hi hen, respAddrRx_eq_consultResp]
  exact ⟨fun hp => consultResp_absent (c := .onAddressMatch _ _) hp,
    fun hp => consultResp_answered (c := .onAddressMatch _ _) hp rfl⟩

/-- Settles O22: the four rows are one consultation of on_byte_received, by default ACT_NACK, after DATA is read; whether
START is honoured is the row's choice. -/
theorem responderByteReceived : Obligations.ResponderByteReceived := by
  unfold Obligations.ResponderByteReceived
  intro s d i code hs hi hen
  rw [exec_byteReceived hi hen, respData_eq_consultResp]
  refine ⟨fun hp => ?_, fun a t hp hcall => consultResp_answered (c := .onByteReceived _ _) hp hcall⟩
  have hdflt := consultResp_absent (s := (s.afterReport code d).afterDataRead) (c := .onByteReceived d code)
    (dflt := ACT_NACK) (hs := hs) hp
  rwa [show ACT_NACK.getLsbD 2 = false from rfl, Bool.and_false] at hdflt

/-- Settles O23: the row is one consultation of on_stop_received, by default ACT_ACK, with START honoured. -/
theorem responderStopReceived : Obligations.ResponderStopReceived := by
  unfold Obligations.ResponderStopReceived
  intro s d hen
  have hrow : exec (.srStop d) s = stopReceivedRow (s.afterReport 0xA0#8 d) := deliver_enabled hen rfl d _
  rw [hrow, stopReceivedRow_eq_consultResp]
  exact ⟨fun hp => consultResp_absent (c := .onStopReceived) hp,
    fun a t hp hcall => consultResp_answered (c := .onStopReceived) hp hcall⟩

/-- Settles O24: both rows request a byte in the state u that the match leaves (`State.matchedTx`), which has the callbacks
and the faults of s. -/
theorem transmitAddressMatched : Obligations.TransmitAddressMatched := by
  unfold Obligations.TransmitAddressMatched
  rintro s t u d i code hi hen rfl hu
  have hu : u = (s.afterReport code d).matchedTx code := hu.trans ((s.afterReport code d).matchedTx_eq code).symm
  obtain ⟨hslots, hfaults⟩ := (s.afterReport code d).matchedTx_slots_faults code
  rw [← hu] at hslots hfaults
  have hf : u.faults = [] := hfaults.trans (State.faults_of_enabled (s := s) hen)
  rw [exec_transmitMatch hi hen, respAddrTx_eq, respAddrTx_eq, ← hu]
  exact ⟨fun a v hp hcall => byteRequested_answered (hslots ▸ hp) hcall,
    fun hp => byteRequested_absent hf (hslots ▸ hp), rfl⟩

/-- Settles O25: the row is a byte request in the state after the report. -/
theorem byteRequestedSends : Obligations.ByteRequestedSends := by
  unfold Obligations.ByteRequestedSends
  intro s d hen
  have hf : s.faults = [] := State.faults_of_enabled hen
  have hrow : exec (.stDataAck d) s = byteRequested (s.afterReport 0xB8#8 d) := deliver_enabled hen rfl d _
  rw [hrow]
  exact ⟨fun a t hp hcall => byteRequested_answered (s := s.afterReport 0xB8#8 d) hp hcall,
    fun hp => byteRequested_absent (s := s.afterReport 0xB8#8 d) hf hp⟩

/-- Settles O26: both rows are one consultation of on_last_byte, by default ACT_ACK, with START honoured. -/
theorem lastByteRearms : Obligations.LastByteRearms := by
  unfold Obligations.LastByteRearms
  intro s d i code hi hen
  rw [exec_lastByte hi hen, lastByte_eq_consultResp]
  exact ⟨fun hp => consultResp_absent (c := .onLastByte _) hp,
    fun a t hp hcall => consultResp_answered (c := .onLastByte _) hp hcall⟩

/-- Settles O27: the row is the stop's command and the role Idle, whatever the role and the phase are. -/
theorem busErrorStops : Obligations.BusErrorStops := by
  unfold Obligations.BusErrorStops
  intro s d hen
  have hrow : exec (.busError d) s = busErrorRow (s.afterReport 0x00#8 d) := deliver_enabled hen rfl d _
  rw [hrow, busErrorRow, State.issue_eq]

end Sys2Proof.Machine
end

section
/-! PROOF. What the responder rows leave alone (43_responder_events.md R196): each row keeps the transfer, or sets its mode
and keeps the rest. -/

namespace Sys2Proof.Machine

/-- What R196 speaks of: the role, the transfer's fields, the buffer memory and the mode. -/
structure Transfer where
  roleState : RoleState
  cursor : Option Half
  length : Option Half
  bufferBase : Option Half
  targetAddress : Option Byte
  mem : Memory
  transferMode : TransferMode

/-- The transfer of a state. -/
def State.transfer (s : State) : Transfer :=
  ⟨s.roleState, s.cursor, s.length, s.bufferBase, s.targetAddress, s.mem, s.transferMode⟩

/-- A row keeps the transfer. -/
def KeepsTransfer (row : State → Out) : Prop := ∀ s t, row s = .next t → t.transfer = s.transfer

/-- A row sets this mode and keeps the rest of the transfer. -/
def SetsMode (mode : TransferMode) (row : State → Out) : Prop :=
  ∀ s t, row s = .next t → t.transfer = { s.transfer with transferMode := mode }

/-! ## The parts of a row -/

theorem State.policyCall_transfer (s : State) (c : Call) : (s.policyCall c).2.transfer = s.transfer := by
  obtain ⟨_, _, h⟩ := s.policyCall_frame c
  rw [h]
  rfl

theorem State.consult_transfer (s : State) (c : Call) (dflt : Byte) : (s.consult c dflt).2.transfer = s.transfer := by
  obtain ⟨_, _, _, h⟩ := s.consult_frame c dflt
  rw [h]
  rfl

theorem State.matchedTx_transfer (s : State) (code : Byte) :
    (s.matchedTx code).transfer = { s.transfer with transferMode := .responderTransmit } :=
  State.consult_transfer _ _ _

/-! ## One lemma per row -/

/-- A command writes nothing of the transfer, a consultation neither. -/
theorem consultResp_keepsTransfer (c : Call) (dflt : Byte) (hs : Bool) : KeepsTransfer (consultResp c dflt hs) := by
  intro s t h
  rw [← Host.Outcome.next.inj h]
  exact s.consult_transfer c dflt

theorem respData_keepsTransfer (hs : Bool) (code : Byte) : KeepsTransfer (respData hs code) :=
  fun s t h => consultResp_keepsTransfer _ _ _ s.afterDataRead t h

theorem respAddrRx_setsMode (code : Byte) : SetsMode .responderReceive (respAddrRx code) :=
  fun s t h => consultResp_keepsTransfer _ _ _ (State.afterDataRead { s with transferMode := .responderReceive }) t h

theorem byteRequested_keepsTransfer : KeepsTransfer byteRequested := by
  intro s t h
  unfold byteRequested at h
  split at h
  · rw [← Host.Outcome.next.inj h]
    exact s.policyCall_transfer .onByteRequested
  · rw [raise_next h]
    rfl

theorem respAddrTx_setsMode (code : Byte) : SetsMode .responderTransmit (respAddrTx true code) := by
  intro s t h
  rw [respAddrTx_eq] at h
  rw [← s.matchedTx_transfer code]
  exact byteRequested_keepsTransfer _ t h

/-! ## The responder events -/

/-- The codes of the address matches. -/
def matchCodes : List Byte := [0x60#8, 0x68#8, 0x70#8, 0x78#8, 0xA8#8, 0xB0#8]

/-- An event with a code from 0x60 is the delivery of a row that keeps the transfer or, at an address match, sets its mode. -/
theorem exec_responder {i : Instr} {code d : Byte} (henc : encode i = [code, d]) (hp : i.port = .event)
    (hcode : 0x60 ≤ code.toNat) : ∃ row, (∀ s, exec i s = deliver code d row s) ∧
      (KeepsTransfer row ∨ code ∈ matchCodes ∧ ∃ mode, SetsMode mode row) := by
  cases i <;> cases hp <;> cases henc
  case srSlaAck | srArbLostSlaAck | srGcallAck | srArbLostGcallAck =>
    exact ⟨_, fun _ => rfl, .inr ⟨by decide, _, respAddrRx_setsMode _⟩⟩
  case srDataAck | srGcallDataAck => exact ⟨_, fun _ => rfl, .inl (respData_keepsTransfer false _)⟩
  case srDataNack | srGcallDataNack => exact ⟨_, fun _ => rfl, .inl (respData_keepsTransfer true _)⟩
  case srStop => exact ⟨_, fun _ => rfl, .inl (consultResp_keepsTransfer .onStopReceived ACT_ACK true)⟩
  case stSlaAck | stArbLostSlaAck => exact ⟨_, fun _ => rfl, .inr ⟨by decide, _, respAddrTx_setsMode _⟩⟩
  case stDataAck => exact ⟨_, fun _ => rfl, .inl byteRequested_keepsTransfer⟩
  case stDataNack | stLastData => exact ⟨_, fun _ => rfl, .inl (consultResp_keepsTransfer (.onLastByte _) ACT_ACK true)⟩
  all_goals exact absurd hcode (by decide)

/-- What a delivery answers, its row answered in the state after the report. -/
theorem deliver_next_row {s t : State} {code d : Byte} {row : State → Out} (hc : code &&& 0xF8#8 = code)
    (h : deliver code d row s = .next t) : row (s.afterReport code d) = .next t := by
  rwa [deliver_enabled (deliver_next h) hc] at h

theorem encode_event_code {i : Instr} {code d : Byte} (henc : encode i = [code, d]) (hp : i.port = .event) :
    code &&& 0xF8#8 = code := by
  obtain ⟨code', _, _, henc', hc, _⟩ := exec_event hp
  obtain ⟨rfl, _⟩ := List.cons.inj (henc.symm.trans henc')
  exact hc

/-- The report writes nothing of the transfer, so a responder event sets the mode at most, and that at a match alone. -/
theorem exec_responder_transfer {i : Instr} {s t : State} {code d : Byte} (henc : encode i = [code, d])
    (hp : i.port = .event) (hcode : 0x60 ≤ code.toNat) (h : exec i s = .next t) :
    ∃ mode, t.transfer = { s.transfer with transferMode := mode } ∧ (code ∉ matchCodes → mode = s.transferMode) := by
  obtain ⟨row, hexec, hrow⟩ := exec_responder henc hp hcode
  rw [hexec] at h
  have hnext := deliver_next_row (encode_event_code henc hp) h
  rcases hrow with hkeep | ⟨hmatch, mode, hset⟩
  · exact ⟨s.transferMode, hkeep (s.afterReport code d) t hnext, fun _ => rfl⟩
  · exact ⟨mode, hset (s.afterReport code d) t hnext, fun hno => absurd hmatch hno⟩

/-- Settles O56: the clauses are the fields of the transfer that `exec_responder_transfer` gives. -/
theorem responderFrame : Obligations.ResponderFrame := by
  unfold Obligations.ResponderFrame
  intro s t i code d henc hp hcode h
  obtain ⟨mode, ht, hmode⟩ := exec_responder_transfer henc hp hcode h
  exact ⟨congrArg Transfer.roleState ht, congrArg Transfer.cursor ht, congrArg Transfer.length ht,
    congrArg Transfer.bufferBase ht, congrArg Transfer.targetAddress ht, congrArg Transfer.mem ht,
    fun hno => (congrArg Transfer.transferMode ht).trans (hmode hno)⟩

end Sys2Proof.Machine
end

section
/-! PROOF. What a check answers, wait by wait, and how a started transfer goes on (44_orchestrator.md R231 to R239). -/

namespace Sys2Proof.Machine

theorem State.quiescent_iff (s : State) :
    s.quiescent = true ↔ s.roleState = .idle ∨ s.roleState = .repeatedStartPending := by
  cases hr : s.roleState <;> simp [State.quiescent, hr]

/-! ## The wait that a check looks at -/

section Waits

variable {s : State} (hf : s.faults = [])
include hf

theorem check_waitQ1 (hp : s.phase = .waitQ1) : check s = checkQ1 s := by rw [check, unlessFaulted_clean hf, hp]

theorem check_waitRS (hp : s.phase = .waitRS) : check s = checkRS s := by rw [check, unlessFaulted_clean hf, hp]

theorem check_waitDone (hp : s.phase = .waitDone) : check s = checkDone s := by rw [check, unlessFaulted_clean hf, hp]

end Waits

/-- A failed check with the budget spent takes the wait's timeout action. -/
theorem checkFailed_spent {s : State} (hb : s.timeoutBudget = some s.waitK) (onTimeout : State) :
    checkFailed onTimeout s = .next onTimeout := by
  rw [checkFailed, withField_written hb, if_pos rfl]

/-! ## The start of a transfer -/

theorem armAndStart_repeated {s : State} {o : Op} (ho : s.op = some o) (hr : s.roleState = .repeatedStartPending) :
    armAndStart s = .next { s.armed o with waitK := 0#16, phase := .waitRS } := by
  rw [armAndStart, withField_written ho, if_pos hr, repeatedStartBranch, State.startWait]

/-- What the Idle branch leaves before AfterStart (44_orchestrator.md R234, R235). -/
def State.startIssued (s : State) (o : Op) : State :=
  { (if o.noStart then s.armed o else (s.armed o).afterCommand true true false) with roleState := .busy }

theorem armAndStart_idle {s : State} {o : Op} (ho : s.op = some o) (hr : s.roleState = .idle) :
    armAndStart s = afterStart (s.startIssued o) := by
  have hne : s.roleState ≠ .repeatedStartPending := by simp [hr]
  have ho' : (s.armed o).op = some o := ho
  rw [armAndStart, withField_written ho, if_neg hne, idleBranch, withField_written ho', State.issue_eq, State.startIssued]

theorem State.startIssued_op (s : State) (o : Op) : (s.startIssued o).op = s.op := by
  dsimp only [State.startIssued]
  split <;> rfl

theorem reissueAddress_armed {s : State} {a : Byte} (ha : s.targetAddress = some a) :
    reissueAddress s = afterStart { s.afterByteCommand true false false a with roleState := .busy } := by
  rw [reissueAddress, withField_written ha, State.issueByte_eq]

/-- AfterStart() with a latched record: a posted transmit returns NoWait, any other transfer waits for completion. -/
theorem afterStart_latched {m : State} {o : Op} (ho : m.op = some o) :
    (o.selector = 7#4 ∧ o.posted = true → afterStart m = .next (m.afterReturn 0x04#8)) ∧
    (¬(o.selector = 7#4 ∧ o.posted = true) → afterStart m = .next { m with waitK := 0#16, phase := .waitDone }) := by
  rw [afterStart, withField_written ho]
  exact ⟨fun h => if_pos h, fun h => if_neg h⟩

end Sys2Proof.Machine
end

section
/-! PROOF. A transfer accepted, and the ends of its three waits (44_orchestrator.md R233 to R241). -/

namespace Sys2Proof.Machine

/-! ## Acceptance -/

theorem regionRefusal_of_fits {buf len : Half} (h : buf.toNat + len.toNat ≤ 2 ^ 16) : regionRefusal buf len = none := by
  have hok : regionOk buf len = true := decide_eq_true h
  rw [regionRefusal, if_pos hok]

/-- transmit and receive differ only in the record they latch. -/
theorem exec_transfer {i : Instr} {o : Op} {a : BitVec 7} {buf len : Half} {ns po : Bool}
    (hi : (i, o) ∈ [(Instr.transmit a buf len ns po, (⟨7#4, false, a, buf, len, ns, po⟩ : Op)),
      (Instr.receive a buf len ns, (⟨8#4, true, a, buf, len, ns, false⟩ : Op))]) (s : State) :
    exec i s = accept (regionRefusal buf len) o transferStart s := by
  simp only [List.mem_cons, List.not_mem_nil, or_false, Prod.mk.injEq] at hi
  rcases hi with ⟨rfl, rfl⟩ | ⟨rfl, rfl⟩
  · rfl
  · rfl

/-- Settles O36: a region that fits is not refused, so the record is latched and TransferStart() runs, whose two branches
are the two clauses. -/
theorem transferAccepted : Obligations.TransferAccepted := by
  unfold Obligations.TransferAccepted
  intro s a buf len ns po i o hi hp hf hfits
  have hrun : exec i s = transferStart { s with op := some o } := by
    rw [exec_transfer hi, regionRefusal_of_fits hfits, accept_ready hp hf]
  rw [hrun, transferStart]
  exact ⟨fun hr => if_neg hr, fun hr => if_pos hr⟩

/-! ## The three waits -/

/-- Settles O38: both roles are quiescent, so the check arms the transfer; in Idle it then goes on by AfterStart(), whose
branches are `afterStart_latched`. -/
theorem firstWaitSucceeds : Obligations.FirstWaitSucceeds := by
  unfold Obligations.FirstWaitSucceeds
  intro s t o hp hf ho ht
  have harmed : t = s.armed o := ht
  subst harmed
  have hcheck (hr : s.roleState = .idle ∨ s.roleState = .repeatedStartPending) : check s = armAndStart s := by
    rw [check_waitQ1 hf hp, checkQ1, if_pos (s.quiescent_iff.2 hr)]
  refine ⟨fun hr u hu => ?_, fun hr => ?_⟩
  · have hissued : u = s.startIssued o := hu
    rw [hcheck (.inl hr), armAndStart_idle ho hr, hissued]
    exact afterStart_latched ((s.startIssued_op o).trans ho)
  · rw [hcheck (.inr hr), armAndStart_repeated ho hr]

/-- Settles O39: a START code re-issues the address and goes on by AfterStart(); any other event is a failed check, whose
timeout action is the forced reset. -/
theorem repeatedStartWaitEnds : Obligations.RepeatedStartWaitEnds := by
  unfold Obligations.RepeatedStartWaitEnds
  intro s hp hf
  have hcheck {ev : Byte} (he : s.lastEvent = some ev) : check s =
      if ev = 0x08#8 ∨ ev = 0x10#8 then reissueAddress s else checkFailed (s.doReset.returned resultTimedOut) s := by
    rw [check_waitRS hf hp, checkRS, withField_written he]
  refine ⟨fun u a o ha ho hev hu => ?_, fun e he h08 h10 hb => ?_⟩
  · have hreissue : check s = afterStart u := by
      rw [hu, ← reissueAddress_armed ha]
      rcases hev with he | he
      · exact (hcheck he).trans (if_pos (.inl rfl))
      · exact (hcheck he).trans (if_pos (.inr rfl))
    have hlatched : u.op = some o := by rw [hu]; exact ho
    rw [hreissue]
    exact afterStart_latched hlatched
  · have hother : ¬(e = 0x08#8 ∨ e = 0x10#8) := not_or.2 ⟨h08, h10⟩
    rw [hcheck he, if_neg hother, checkFailed_spent hb, State.doReset_eq, State.returned_eq, resultTimedOut]

/-- Settles O40: a quiescent state returns last_event before wait_k is looked at; any other is a failed check, whose timeout
action is Return(TimedOut) alone. -/
theorem completionWaitEnds : Obligations.CompletionWaitEnds := by
  unfold Obligations.CompletionWaitEnds
  intro s hp hf
  rw [check_waitDone hf hp, checkDone]
  refine ⟨fun ev hev hr => ?_, fun hidle hrep hb => ?_⟩
  · rw [if_pos (s.quiescent_iff.2 hr), withField_written hev, State.returned_eq]
  · have hbusy : ¬s.quiescent = true := fun hq => (s.quiescent_iff.1 hq).elim hidle hrep
    rw [if_neg hbusy, checkFailed_spent hb, State.returned_eq, resultTimedOut]

end Sys2Proof.Machine
end

section
/-! PROOF. The end of the stop wait (45_stop.md R261, R262). -/

namespace Sys2Proof.Machine

theorem check_waitStop {s : State} (hf : s.faults = []) (hp : s.phase = .waitStop) : check s = checkStop s := by
  rw [check, unlessFaulted_clean hf, hp]

/-- Settles O41: stop_pending at 0 returns Ok before wait_k is looked at; at 1 the check is a failed one, whose timeout
action is the forced reset. -/
theorem stopWaitEnds : Obligations.StopWaitEnds := by
  unfold Obligations.StopWaitEnds
  intro s hp hf
  rw [check_waitStop hf hp, checkStop]
  refine ⟨fun hclear => ?_, fun hpending hb => ?_⟩
  · have hnotPending : ¬s.stopPending = true := by simp [hclear]
    rw [if_neg hnotPending, State.returned_eq, resultOk]
  · rw [if_pos hpending, checkFailed_spent hb, State.doReset_eq, State.returned_eq, resultTimedOut]

end Sys2Proof.Machine
end

section
/-! PROOF. When an event runs (60_exceptions.md R288). A delivery that is not enabled is refused; an enabled one is answered
by its row, and no row refuses: it ends in a next state or in an access to the buffer that is not admitted. -/

namespace Sys2Proof.Machine

/-- A next state or a fault. -/
def Unrefused (o : Out) : Prop := ∀ r, o ≠ .refused r

/-- A row that has a meaning in every state. -/
def NeverRefuses (row : State → Out) : Prop := ∀ s, Unrefused (row s)

/-! ## The shared operations -/

theorem Unrefused.next (s : State) : Unrefused (.next s) := fun _ h => nomatch h

theorem Unrefused.fault (r : Fault) : Unrefused (.fault r) := fun _ h => nomatch h

theorem raise_neverRefuses (r : FaultReason) : NeverRefuses (raise r) := fun _ => .next _

theorem Unrefused.withField {α : Type} (v : Option α) (f : Field) (s : State) {k : α → Out} (hk : ∀ x, Unrefused (k x)) :
    Unrefused (withField v f s k) := by
  cases v with
  | none => exact raise_neverRefuses _ s
  | some x => exact hk x

theorem Unrefused.memRead (a : Half) (s : State) {k : Byte → Out} (hk : ∀ b, Unrefused (k b)) :
    Unrefused (memRead a s k) := by
  unfold Machine.memRead
  split
  · exact hk _
  · exact .fault _

theorem Unrefused.memWrite (a : Half) (v : Byte) (s : State) {k : State → Out} (hk : NeverRefuses k) :
    Unrefused (memWrite a v s k) := by
  unfold Machine.memWrite
  split
  · exact hk _
  · exact .fault _

theorem Unrefused.atCursor (s : State) {use : Half → Half → Out} {full : Out} (hu : ∀ base c, Unrefused (use base c))
    (hfull : Unrefused full) : Unrefused (atCursor s use full) := by
  refine .withField _ _ _ fun c => .withField _ _ _ fun l => ?_
  split
  · exact .withField _ _ _ fun base => hu base c
  · exact hfull

/-! ## The rows -/

theorem startRow_neverRefuses : NeverRefuses startRow := by
  intro s
  unfold startRow
  split
  · exact .next _
  · exact .withField _ _ _ fun _ => .next _

theorem completion_neverRefuses : NeverRefuses completion := fun _ => .withField _ _ _ fun _ => .next _

theorem sendNextOrComplete_neverRefuses : NeverRefuses sendNextOrComplete := by
  intro s
  rw [sendNextOrComplete_eq_atCursor]
  exact .atCursor s (fun _ _ => .memRead _ _ fun _ => .next _) (completion_neverRefuses s)

theorem nackPath_neverRefuses : NeverRefuses nackPath := by
  refine fun s => .withField _ _ _ fun ev => ?_
  dsimp only
  split
  · exact sendNextOrComplete_neverRefuses _
  · exact .next _

theorem arbLostRow_neverRefuses (code : Byte) : NeverRefuses (arbLostRow code) := fun _ => .next _

theorem issueRxAck_neverRefuses : NeverRefuses issueRxAck :=
  fun _ => .withField _ _ _ fun _ => .withField _ _ _ fun _ => .next _

theorem storeReceived_neverRefuses {k : State → Out} (hk : NeverRefuses k) : NeverRefuses (storeReceived k) := by
  intro s
  rw [storeReceived_eq_atCursor]
  exact .atCursor _ (fun _ _ => .memWrite _ _ _ fun _ => hk _) (hk _)

theorem consultResp_neverRefuses (c : Call) (dflt : Byte) (hs : Bool) : NeverRefuses (consultResp c dflt hs) :=
  fun _ => .next _

theorem respAddrRx_neverRefuses (code : Byte) : NeverRefuses (respAddrRx code) := by
  intro s
  rw [respAddrRx_eq_consultResp]
  exact consultResp_neverRefuses _ _ _ _

theorem respData_neverRefuses (hs : Bool) (code : Byte) : NeverRefuses (respData hs code) := by
  intro s
  rw [respData_eq_consultResp]
  exact consultResp_neverRefuses _ _ _ _

theorem byteRequested_neverRefuses : NeverRefuses byteRequested := by
  intro s
  unfold byteRequested
  split
  · exact .next _
  · exact raise_neverRefuses _ s

theorem respAddrTx_neverRefuses (loadsFirst : Bool) (code : Byte) : NeverRefuses (respAddrTx loadsFirst code) := by
  intro s
  rw [respAddrTx_eq]
  split
  · exact byteRequested_neverRefuses _
  · exact .next _

theorem busErrorRow_neverRefuses : NeverRefuses busErrorRow := fun _ => .next _

/-- Every event is the delivery of a row that never refuses. -/
theorem exec_event_deliversRow {i : Instr} (hp : i.port = .event) :
    ∃ code d row, (∀ s, exec i s = deliver code d row s) ∧ NeverRefuses row := by
  cases i <;> cases hp
  case busError => exact ⟨_, _, _, fun _ => rfl, busErrorRow_neverRefuses⟩
  case start | repStart => exact ⟨_, _, _, fun _ => rfl, startRow_neverRefuses⟩
  case mtSlaAck | mtDataAck => exact ⟨_, _, _, fun _ => rfl, sendNextOrComplete_neverRefuses⟩
  case mtSlaNack | mtDataNack | mrSlaNack => exact ⟨_, _, _, fun _ => rfl, nackPath_neverRefuses⟩
  case arbLost => exact ⟨_, _, _, fun _ => rfl, arbLostRow_neverRefuses _⟩
  case mrSlaAck => exact ⟨_, _, _, fun _ => rfl, issueRxAck_neverRefuses⟩
  case mrDataAck => exact ⟨_, _, _, fun _ => rfl, storeReceived_neverRefuses issueRxAck_neverRefuses⟩
  case mrDataNack => exact ⟨_, _, _, fun _ => rfl, storeReceived_neverRefuses completion_neverRefuses⟩
  case srSlaAck | srArbLostSlaAck | srGcallAck | srArbLostGcallAck =>
    exact ⟨_, _, _, fun _ => rfl, respAddrRx_neverRefuses _⟩
  case srDataAck | srGcallDataAck => exact ⟨_, _, _, fun _ => rfl, respData_neverRefuses false _⟩
  case srDataNack | srGcallDataNack => exact ⟨_, _, _, fun _ => rfl, respData_neverRefuses true _⟩
  case srStop => exact ⟨_, _, _, fun _ => rfl, consultResp_neverRefuses .onStopReceived ACT_ACK true⟩
  case stSlaAck | stArbLostSlaAck => exact ⟨_, _, _, fun _ => rfl, respAddrTx_neverRefuses _ _⟩
  case stDataAck => exact ⟨_, _, _, fun _ => rfl, byteRequested_neverRefuses⟩
  case stDataNack | stLastData => exact ⟨_, _, _, fun _ => rfl, consultResp_neverRefuses (.onLastByte _) ACT_ACK true⟩

/-! ## The delivery -/

theorem State.deliveryEnabled_iff_of_clean {s : State} (hf : s.faults = []) :
    s.deliveryEnabled = true ↔ s.ctrlEn = true ∧ s.ctrlIe = true ∧ s.irqFlag = false := by
  simp [s.deliveryEnabled_iff, hf]

theorem deliver_faulted {s : State} {r : FaultReason} {rs : List FaultReason} (hf : s.faults = r :: rs) (code d : Byte)
    (row : State → Out) : deliver code d row s = .fault (.recorded r) :=
  unlessFaulted_faulted hf _

theorem deliver_disabled {s : State} (hf : s.faults = []) (hen : ¬s.deliveryEnabled = true) (code d : Byte)
    (row : State → Out) : deliver code d row s = .refused .deliveryDisabled :=
  (unlessFaulted_clean hf _).trans (if_neg hen)

theorem NeverRefuses.deliver_unrefused {row : State → Out} (h : NeverRefuses row) {s : State}
    (hen : s.deliveryEnabled = true) (code d : Byte) : Unrefused (deliver code d row s) := by
  rw [deliver, unlessFaulted_clean (State.faults_of_enabled hen), if_pos hen]
  exact h _

/-- With no fault recorded, the delivery of a row that never refuses is refused exactly while it is not enabled. -/
theorem NeverRefuses.deliver_refused_iff {row : State → Out} (h : NeverRefuses row) {s : State} (hf : s.faults = [])
    (code d : Byte) : deliver code d row s = .refused .deliveryDisabled ↔
      ¬(s.ctrlEn = true ∧ s.ctrlIe = true ∧ s.irqFlag = false) := by
  rw [← s.deliveryEnabled_iff_of_clean hf]
  exact ⟨fun hrefused hen => h.deliver_unrefused hen code d _ hrefused, fun hen => deliver_disabled hf hen code d row⟩

/-- Settles O10: an event is the delivery of its row, a reserved code the delivery of a row that only raises, and no row
refuses, so the refusal is the delivery's own (`NeverRefuses.deliver_refused_iff`). -/
theorem deliveryNeedsEnable : Obligations.DeliveryNeedsEnable := by
  unfold Obligations.DeliveryNeedsEnable
  refine fun s => ⟨fun i hp => ?_, fun sr data => ?_⟩
  · obtain ⟨code, d, row, hexec, hrow⟩ := exec_event_deliversRow hp
    rw [hexec]
    exact ⟨fun hf => hrow.deliver_refused_iff hf code d, fun r rs hf => deliver_faulted hf code d row⟩
  · exact ⟨fun hf => (raise_neverRefuses _).deliver_refused_iff hf _ data, fun r rs hf => deliver_faulted hf _ data _⟩

end Sys2Proof.Machine
end

section
/-! PROOF. The order of the port accesses in a dispatch (70_reset_and_hazards.md R314 to R316): the report reads SR, a row
reads DATA at most once before it ends, and its end writes DATA at most once and then CTRL at most once. -/

namespace Sys2Proof.Machine

/-- From r to t the port is accessed by at most one read of DATA, then at most one write of DATA, then at most one write of
CTRL (R316). -/
def RowAccesses (r t : State) : Prop :=
  ∃ rd wr cm, t.portLog = r.portLog ++ rd ++ wr ++ cm ∧ (rd = [] ∨ rd = [.read .data]) ∧
    (wr = [] ∨ wr = [.write .data t.data]) ∧ (cm = [] ∨ ∃ v, cm = [.write .ctrl v])

theorem RowAccesses.refl (r : State) : RowAccesses r r := ⟨[], [], [], by simp, .inl rfl, .inl rfl, .inl rfl⟩

theorem Between.portLog {r m : State} (h : Between r m) :
    ∃ rd, m.portLog = r.portLog ++ rd ∧ (rd = [] ∨ rd = [.read .data]) := by
  obtain ⟨rd, _, _, _, _, _, _, hrd, _, _, _, rfl⟩ := h
  exact ⟨rd, rfl, hrd⟩

theorem Ended.portLog {r m t : State} (h : Ended r m t) :
    ∃ wr cm, t.portLog = m.portLog ++ wr ++ cm ∧ (wr = [] ∨ wr = [.write .data t.data]) ∧
      (cm = [] ∨ ∃ v, cm = [.write .ctrl v]) := by
  rcases h with ⟨ack, sta, sto, _, _, rfl⟩ | ⟨ack, sta, v, rfl⟩ | ⟨_, _, rfl⟩
  · exact ⟨[], [.write .ctrl (cmd ack sta sto)], by simp, .inl rfl, .inr ⟨_, rfl⟩⟩
  · exact ⟨[.write .data v], [.write .ctrl (cmd ack sta false)], by simp, .inr rfl, .inr ⟨_, rfl⟩⟩
  · exact ⟨[], [], by simp, .inl rfl, .inl rfl⟩

theorem RowOutcome.accesses {r t : State} (h : RowOutcome r t) : RowAccesses r t := by
  obtain ⟨m, hbetween, hended⟩ := h
  obtain ⟨rd, hm, hrd⟩ := hbetween.portLog
  obtain ⟨wr, cm, ht, hwr, hcm⟩ := hended.portLog
  exact ⟨rd, wr, cm, hm ▸ ht, hrd, hwr, hcm⟩

/-- Settles O48: the report logs the one read of SR, and the row that follows accesses the port in order
(`RowOutcome.accesses`) or, a START held in RepeatedStartPending, not at all. -/
theorem dispatchAccessOrder : Obligations.DispatchAccessOrder := by
  unfold Obligations.DispatchAccessOrder
  intro s t i hp h
  obtain ⟨code, d, _, _, _, hout⟩ := exec_event_next hp h
  have haccesses : RowAccesses (s.afterReport code d) t := by
    rcases hout with ⟨_, hrow⟩ | ⟨_, rfl, _⟩
    · exact hrow.accesses
    · exact .refl _
  exact haccesses

end Sys2Proof.Machine
end

section
/-! PROOF. The power-on values (70_reset_and_hazards.md R310). -/

namespace Sys2Proof.Machine

theorem SlotBits.absent_get (k : Slot) : SlotBits.absent.get k = false := by
  cases k <;> rfl

/-- Settles O46: each value is read off `State.reset`, where CTRL.ENABLE is 0, so that delivery is off; the slots by cases
(`SlotBits.absent_get`). -/
theorem powerOnValues : Obligations.PowerOnValues := by
  unfold Obligations.PowerOnValues
  exact ⟨rfl, rfl, SlotBits.absent_get, by decide⟩

end Sys2Proof.Machine
end

section
/-! PROOF. Decoding (30_encoding.md R81, R95, R96): the decoder reads back what the encoder writes, and what it accepts is well
formed. -/

namespace Sys2Proof

/-! ## The fields of a record, read back -/

theorem setWidth_setWidth_of_le {m n : Nat} (h : m ≤ n) (v : BitVec m) : (v.setWidth n).setWidth m = v := by
  rw [BitVec.setWidth_setWidth_of_le v h, BitVec.setWidth_eq]

theorem setWidth_toNat_le {m n : Nat} (h : m ≤ n) (v : BitVec m) : (v.setWidth n).toNat ≤ 2 ^ m - 1 := by
  rw [BitVec.toNat_setWidth_of_le h]
  exact Nat.le_sub_one_of_lt v.isLt

/-- The decoder's region check is the well-formedness check and the check that len fits its 16 bits. -/
theorem regionRefused_eq_false_iff {buf : Half} {n : Nat} :
    regionRefused buf n = false ↔ n ≤ 0xFFFF ∧ buf.toNat + n ≤ 2 ^ 16 := by
  rw [regionRefused, decide_eq_false_iff_not]
  omega

/-- The encoder's len has a third byte 0, and a well-formed region passes the check. -/
theorem not_regionRefused_encoded {buf len : Half} (h : regionOk buf len = true) :
    ¬regionRefused buf ((0#8 : Byte) ++ len).toNat = true := by
  have hlen : ((0#8 : Byte) ++ len).toNat = len.toNat := by rw [append_toNat, BitVec.toNat_ofNat]; omega
  rw [hlen, Bool.not_eq_true, regionRefused_eq_false_iff]
  exact ⟨Nat.le_of_lt_succ len.isLt, of_decide_eq_true h⟩

/-! ## Each record with fields, read back -/

theorem decodeInit_encoded (fd : BitVec 32) (t : Half) (hc hn : Bool) (rest : List Byte) :
    decodeInit (word32Bytes fd ++ halfBytes t ++ [flagByte [hc, hn]] ++ rest) = .instr (.initController fd t hc hn) rest := by
  obtain ⟨hfc, hfn⟩ := flagByte_two hc hn
  simp only [word32Bytes, halfBytes, List.cons_append, List.nil_append, decodeInit, word32_split, half_split, hfc, hfn]

theorem decodeInitRaw_encoded (b : Byte) (p : BitVec 2) (t : Half) (hc hn : Bool) (rest : List Byte) :
    decodeInitRaw ([b, 0#8, p.setWidth 8] ++ halfBytes t ++ [flagByte [hc, hn]] ++ rest) =
      .instr (.initControllerRaw b p t hc hn) rest := by
  obtain ⟨hfc, hfn⟩ := flagByte_two hc hn
  have hfits : ¬(0xFF < (half b 0#8).toNat ∨ 3 < (p.setWidth 8).toNat) := by
    have hb : (half b 0#8).toNat = b.toNat := half_toNat b 0#8
    have hp := setWidth_toNat_le (n := 8) (by decide) p
    omega
  simp only [halfBytes, List.cons_append, List.nil_append, decodeInitRaw, if_neg hfits, half_split, hfc, hfn,
    setWidth_setWidth_of_le (show 2 ≤ 8 by decide)]

theorem decodeConfigure_encoded (a m : BitVec 7) (g h2 h3 h4 h5 h6 : Bool) (rest : List Byte) :
    decodeConfigure ([a.setWidth 8, bitByte g, m.setWidth 8, flagByte [h2, h3, h4, h5, h6]] ++ rest) =
      .instr (.configureResponder a g m h2 h3 h4 h5 h6) rest := by
  obtain ⟨f2, f3, f4, f5, f6⟩ := flagByte_five h2 h3 h4 h5 h6
  have hfits : ¬(0x7F < (a.setWidth 8).toNat ∨ 0x7F < (m.setWidth 8).toNat) :=
    not_or.2 ⟨Nat.not_lt.2 (setWidth_toNat_le (by decide) a), Nat.not_lt.2 (setWidth_toNat_le (by decide) m)⟩
  simp only [List.cons_append, List.nil_append, decodeConfigure, if_neg hfits, bitByte_bit, f2, f3, f4, f5, f6,
    setWidth_setWidth_of_le (show 7 ≤ 8 by decide)]

theorem decodeTransmit_encoded (a : BitVec 7) {b l : Half} (ns po : Bool) (hok : regionOk b l = true)
    (rest : List Byte) :
    decodeTransmit (a.setWidth 8 :: (halfBytes b ++ halfBytes l ++ [0#8, flagByte [ns, po]]) ++ rest) =
      .instr (.transmit a b l ns po) rest := by
  obtain ⟨hfs, hfp⟩ := flagByte_two ns po
  have ha : ¬0x7F < (a.setWidth 8).toNat := Nat.not_lt.2 (setWidth_toNat_le (by decide) a)
  simp only [halfBytes, List.cons_append, List.nil_append, decodeTransmit, if_neg ha, half_split,
    if_neg (not_regionRefused_encoded hok), hfs, hfp, setWidth_setWidth_of_le (show 7 ≤ 8 by decide)]

theorem decodeReceive_encoded (a : BitVec 7) {b l : Half} (ns : Bool) (hok : regionOk b l = true) (rest : List Byte) :
    decodeReceive (a.setWidth 8 :: (halfBytes b ++ halfBytes l ++ [0#8, flagByte [ns]]) ++ rest) =
      .instr (.receive a b l ns) rest := by
  have ha : ¬0x7F < (a.setWidth 8).toNat := Nat.not_lt.2 (setWidth_toNat_le (by decide) a)
  simp only [halfBytes, List.cons_append, List.nil_append, decodeReceive, if_neg ha, half_split,
    if_neg (not_regionRefused_encoded hok), flagByte_one, setWidth_setWidth_of_le (show 7 ≤ 8 by decide)]

/-- Settles O1: an event's code has its own status field and a selector its own decoder, both by computation; the fields
of each record are read back by that record's lemma above. -/
theorem decodeEncode : Obligations.DecodeEncode := by
  unfold Obligations.DecodeEncode
  intro i rest hwf
  cases i with
  | initController fd t hc hn => exact decodeInit_encoded fd t hc hn rest
  | initControllerRaw b p t hc hn => exact decodeInitRaw_encoded b p t hc hn rest
  | configureResponder a g m h2 h3 h4 h5 h6 => exact decodeConfigure_encoded a m g h2 h3 h4 h5 h6 rest
  | transmit a b l ns po => exact decodeTransmit_encoded a ns po hwf rest
  | receive a b l ns => exact decodeReceive_encoded a ns hwf rest
  | _ => rfl

/-! ## What the decoder accepts -/

/-- A transfer's region as the record carries it is the region of its 16-bit len. -/
theorem regionOk_of_not_refused {buf : Half} {l0 l1 l2 : Byte} (h : ¬regionRefused buf (l2 ++ half l0 l1).toNat = true) :
    regionOk buf (half l0 l1) = true := by
  have hfits := regionRefused_eq_false_iff.1 (Bool.eq_false_iff.2 h)
  rw [len24_toNat] at hfits
  have hlen := half_toNat l0 l1
  exact decide_eq_true (by omega)

theorem decodeTransmit_wf {bytes rest : List Byte} {i : Instr} (h : decodeTransmit bytes = .instr i rest) : i.wf = true := by
  unfold decodeTransmit at h
  split at h
  · split at h
    · cases h
    · split at h
      · cases h
      · next hr =>
        cases h
        exact regionOk_of_not_refused hr
  · cases h

theorem decodeReceive_wf {bytes rest : List Byte} {i : Instr} (h : decodeReceive bytes = .instr i rest) : i.wf = true := by
  unfold decodeReceive at h
  split at h
  · split at h
    · cases h
    · split at h
      · cases h
      · next hr =>
        cases h
        exact regionOk_of_not_refused hr
  · cases h

theorem decodeInit_wf {bytes rest : List Byte} {i : Instr} (h : decodeInit bytes = .instr i rest) : i.wf = true := by
  unfold decodeInit at h
  split at h <;> cases h
  rfl

theorem decodeInitRaw_wf {bytes rest : List Byte} {i : Instr} (h : decodeInitRaw bytes = .instr i rest) : i.wf = true := by
  unfold decodeInitRaw at h
  split at h
  · split at h <;> cases h
    rfl
  · cases h

theorem decodeConfigure_wf {bytes rest : List Byte} {i : Instr} (h : decodeConfigure bytes = .instr i rest) :
    i.wf = true := by
  unfold decodeConfigure at h
  split at h
  · split at h <;> cases h
    rfl
  · cases h

theorem decodeHost_wf {sel : Byte} {bytes rest : List Byte} {i : Instr} (h : decodeHost sel bytes = .instr i rest) :
    i.wf = true := by
  unfold decodeHost at h
  split at h
  · exact decodeInit_wf h
  · exact decodeInitRaw_wf h
  · exact decodeConfigure_wf h
  · cases h; rfl
  · cases h; rfl
  · cases h; rfl
  · exact decodeTransmit_wf h
  · exact decodeReceive_wf h
  · cases h

/-- An event has no check to pass. -/
theorem wf_of_event {i : Instr} (h : i.port = .event) : i.wf = true := by
  cases i <;> cases h <;> rfl

theorem decode_instr_wf {p : Port} {bytes rest : List Byte} {i : Instr} (h : decode p bytes = .instr i rest) :
    i.wf = true := by
  match p, bytes with
  | .event, _ => exact wf_of_event (decode_instr_port h)
  | .host, [] => cases h
  | .host, sel :: tail =>
    have h : decodeHost sel tail = .instr i rest := h
    exact decodeHost_wf h

/-- Settles O2: the port is `decode_instr_port`, the check `decode_instr_wf`. -/
theorem decodedIsWellFormed : Obligations.DecodedIsWellFormed := by
  unfold Obligations.DecodedIsWellFormed
  intro p bytes i rest h
  exact ⟨decode_instr_wf h, decode_instr_port h⟩

/-- Settles O4: seven words, decoded by computation. -/
theorem sampleWordsDecode : Obligations.SampleWordsDecode := by
  unfold Obligations.SampleWordsDecode
  decide

end Sys2Proof

namespace Sys2Proof.Machine

/-! ## The address bytes -/

theorem slaByte_toNat (a : BitVec 7) (b : Bool) : (slaByte a b).toNat = 2 * a.toNat + b.toNat := by
  revert a b
  decide

theorem amaskReg_toNat (m : BitVec 7) : (amaskReg m).toNat = 2 * m.toNat := by
  revert m
  decide

theorem matchedAddress_toNat (d : Byte) : (matchedAddress d).toNat = d.toNat / 2 := by
  have hlt := d.isLt
  simp only [matchedAddress, BitVec.extractLsb'_toNat, Nat.shiftRight_eq_div_pow]
  omega

/-- Settles O6: ADDR is built as the SLA byte is, so its number is the SLA byte's. -/
theorem addressBytes : Obligations.AddressBytes := by
  unfold Obligations.AddressBytes
  exact ⟨fun a b => ⟨slaByte_toNat a b, slaByte_toNat a b⟩, amaskReg_toNat, matchedAddress_toNat⟩

end Sys2Proof.Machine
end

section
/-! PROOF. No rule reads transfer_mode (10_state.md R29): a function of the state that does not see the mode gives, from two
states that differ in it alone, the same answer but for the mode of the next state. -/

namespace Sys2Proof.Machine

/-- A state in another mode. -/
def State.withMode (s : State) (m : TransferMode) : State := { s with transferMode := m }

@[simp] theorem State.withMode_phase (s : State) (m : TransferMode) : (s.withMode m).phase = s.phase := rfl
@[simp] theorem State.withMode_script (s : State) (m : TransferMode) : (s.withMode m).script = s.script := rfl

/-- A state with its mode forgotten. -/
def State.modeless (s : State) : State := s.withMode .none

/-- An answer with the next state's mode forgotten. -/
def modelessOut : Out → Out
  | .next t => .next t.modeless
  | .fault r => .fault r
  | .refused r => .refused r

/-- Two answers that differ at most in the mode of the next state. -/
def SameButMode (o o' : Out) : Prop := modelessOut o = modelessOut o'

/-- A part of the machine that does not read the mode. -/
def ModeUnread (f : State → Out) : Prop := ∀ s m, SameButMode (f s) (f (s.withMode m))

theorem SameButMode.refl (o : Out) : SameButMode o o := rfl

/-- The next states of two such answers differ in the mode alone. -/
theorem SameButMode.next {o o' : Out} {t : State} (h : SameButMode o o') (ht : o = .next t) :
    ∃ m, o' = .next (t.withMode m) := by
  subst ht
  cases o' with
  | next u =>
    have hu : t.modeless = u.modeless := Host.Outcome.next.inj h
    refine ⟨u.transferMode, congrArg Host.Outcome.next ?_⟩
    calc u = u.modeless.withMode u.transferMode := rfl
      _ = t.modeless.withMode u.transferMode := by rw [hu]
  | fault r => cases h
  | refused r => cases h

/-! ## The shared operations -/

theorem SameButMode.withField {α : Type} (v : Option α) (f : Field) (s : State) (m : TransferMode) {k k' : α → Out}
    (hk : ∀ x, SameButMode (k x) (k' x)) :
    SameButMode (withField v f s k) (withField v f (s.withMode m) k') := by
  cases v with
  | none => rfl
  | some x => exact hk x

theorem SameButMode.unlessFaulted (s : State) (m : TransferMode) {o o' : Out} (h : SameButMode o o') :
    SameButMode (unlessFaulted s o) (unlessFaulted (s.withMode m) o') := by
  cases hf : s.faults with
  | nil => rwa [unlessFaulted_clean hf, unlessFaulted_clean (s := s.withMode m) hf]
  | cons r rs =>
    rw [unlessFaulted_faulted hf, unlessFaulted_faulted (s := s.withMode m) hf]
    exact .refl _

theorem SameButMode.ite {p : Prop} [Decidable p] {o u o' u' : Out} (ho : SameButMode o o') (hu : SameButMode u u') :
    SameButMode (if p then o else u) (if p then o' else u') := by
  split
  · exact ho
  · exact hu

/-- The mode takes no part in whether an access is admitted. -/
theorem SameButMode.memRead (a : Half) (s : State) (m : TransferMode) {k k' : Byte → Out}
    (hk : ∀ b, SameButMode (k b) (k' b)) : SameButMode (memRead a s k) (memRead a (s.withMode m) k') :=
  .ite (p := s.admitted a = true) (hk _) (.refl _)

theorem SameButMode.memWrite (a : Half) (v : Byte) (s : State) (m : TransferMode) {k : State → Out} (hk : ModeUnread k) :
    SameButMode (memWrite a v s k) (memWrite a v (s.withMode m) k) :=
  .ite (p := s.admitted a = true) (hk _ m) (.refl _)

theorem SameButMode.atCursor (s : State) (m : TransferMode) {use use' : Half → Half → Out} {full full' : Out}
    (hu : ∀ base c, SameButMode (use base c) (use' base c)) (hfull : SameButMode full full') :
    SameButMode (atCursor s use full) (atCursor (s.withMode m) use' full') :=
  .withField _ _ s m fun _ => .withField _ _ s m fun _ => .ite (.withField _ _ s m fun base => hu base _) hfull

theorem State.policyCall_withMode (s : State) (m : TransferMode) (c : Call) :
    (s.withMode m).policyCall c =
      ((s.policyCall c).1, (s.policyCall c).2.withMode m) := by
  have htake : takeAnswer c.slot (s.withMode m).answers = takeAnswer c.slot s.answers := rfl
  unfold State.policyCall
  rw [htake]
  split <;> rfl

theorem State.consult_withMode (s : State) (m : TransferMode) (c : Call) (dflt : Byte) :
    (s.withMode m).consult c dflt =
      ((s.consult c dflt).1, (s.consult c dflt).2.withMode m) := by
  have hslot : (s.withMode m).slots.get c.slot = s.slots.get c.slot := rfl
  unfold State.consult
  rw [State.policyCall_withMode, hslot]
  split <;> rfl

theorem ModeUnread.deliver {row : State → Out} (h : ModeUnread row) (code d : Byte) : ModeUnread (deliver code d row) :=
  fun s m => .unlessFaulted s m (.ite (p := s.deliveryEnabled = true) (h _ m) (.refl _))

theorem ModeUnread.accept {run : State → Out} (h : ModeUnread run) (r : Option RefuseName) (o : Op) :
    ModeUnread (accept r o run) := by
  refine fun s m => .ite (p := s.phase = .ready) ?_ rfl
  cases r with
  | none => exact .unlessFaulted s m (h _ m)
  | some n => rfl

/-! ## The rows of the event table -/

theorem raise_modeUnread (r : FaultReason) : ModeUnread (raise r) := fun _ _ => rfl

theorem completion_modeUnread : ModeUnread completion := by
  refine fun s m => .withField s.lastEvent .lastEvent s m fun ev => ?_
  rw [State.consult_withMode]
  rfl

theorem sendNextOrComplete_modeUnread : ModeUnread sendNextOrComplete := by
  intro s m
  rw [sendNextOrComplete_eq_atCursor, sendNextOrComplete_eq_atCursor]
  exact .atCursor s m (fun _ _ => .memRead _ s m fun _ => rfl) (completion_modeUnread s m)

theorem nackPath_modeUnread : ModeUnread nackPath := by
  refine fun s m => .withField s.lastEvent .lastEvent s m fun ev => ?_
  rw [State.consult_withMode]
  exact .ite (p := actCont _ = true) (sendNextOrComplete_modeUnread _ m) rfl

theorem startRow_modeUnread : ModeUnread startRow :=
  fun s m => .ite (p := s.roleState = .repeatedStartPending) rfl (.withField s.targetAddress .targetAddress s m fun _ => rfl)

theorem arbLostRow_modeUnread (code : Byte) : ModeUnread (arbLostRow code) := by
  intro s m
  unfold arbLostRow
  rw [State.consult_withMode]
  rfl

theorem issueRxAck_modeUnread : ModeUnread issueRxAck :=
  fun s m => .withField s.length .length s m fun _ => .withField s.cursor .cursor s m fun _ => rfl

theorem storeReceived_modeUnread {k : State → Out} (hk : ModeUnread k) : ModeUnread (storeReceived k) := by
  intro s m
  rw [storeReceived_eq_atCursor, storeReceived_eq_atCursor]
  exact .atCursor s.afterDataRead m
    (fun _ c => .memWrite _ _ s.afterDataRead m fun u m' => hk { u with cursor := some (c + 1#16) } m') (hk _ m)

theorem consultResp_modeUnread (c : Call) (dflt : Byte) (hs : Bool) : ModeUnread (consultResp c dflt hs) := by
  intro s m
  unfold consultResp
  rw [State.consult_withMode]
  rfl

/-- The row that begins by setting the mode never sees the old one. -/
theorem respAddrRx_modeUnread (code : Byte) : ModeUnread (respAddrRx code) := fun _ _ => .refl _

theorem respAddrTx_modeUnread (loadsFirst : Bool) (code : Byte) : ModeUnread (respAddrTx loadsFirst code) :=
  fun _ _ => .refl _

theorem respData_modeUnread (hs : Bool) (code : Byte) : ModeUnread (respData hs code) := by
  intro s m
  rw [respData_eq_consultResp, respData_eq_consultResp]
  exact consultResp_modeUnread _ _ _ s.afterDataRead m

theorem byteRequested_modeUnread : ModeUnread byteRequested := by
  refine fun s m => .ite (p := s.slots.get .onByteRequested = true) ?_ rfl
  rw [State.policyCall_withMode]
  rfl

theorem busErrorRow_modeUnread : ModeUnread busErrorRow := fun _ _ => rfl

/-! ## The host operations -/

theorem transferStart_modeUnread : ModeUnread transferStart :=
  fun s _ => .ite (p := s.roleState = .uninitialized) rfl rfl

/-- Every instruction is the delivery of a row or the acceptance of an operation, and neither reads the mode. -/
theorem exec_modeUnread (i : Instr) : ModeUnread (exec i) := by
  cases i with
  | busError d => exact busErrorRow_modeUnread.deliver 0x00#8 d
  | start d => exact startRow_modeUnread.deliver 0x08#8 d
  | repStart d => exact startRow_modeUnread.deliver 0x10#8 d
  | mtSlaAck d => exact sendNextOrComplete_modeUnread.deliver 0x18#8 d
  | mtSlaNack d => exact nackPath_modeUnread.deliver 0x20#8 d
  | mtDataAck d => exact sendNextOrComplete_modeUnread.deliver 0x28#8 d
  | mtDataNack d => exact nackPath_modeUnread.deliver 0x30#8 d
  | arbLost d => exact (arbLostRow_modeUnread 0x38#8).deliver 0x38#8 d
  | mrSlaAck d => exact issueRxAck_modeUnread.deliver 0x40#8 d
  | mrSlaNack d => exact nackPath_modeUnread.deliver 0x48#8 d
  | mrDataAck d => exact (storeReceived_modeUnread issueRxAck_modeUnread).deliver 0x50#8 d
  | mrDataNack d => exact (storeReceived_modeUnread completion_modeUnread).deliver 0x58#8 d
  | srSlaAck d => exact (respAddrRx_modeUnread 0x60#8).deliver 0x60#8 d
  | srArbLostSlaAck d => exact (respAddrRx_modeUnread 0x68#8).deliver 0x68#8 d
  | srGcallAck d => exact (respAddrRx_modeUnread 0x70#8).deliver 0x70#8 d
  | srArbLostGcallAck d => exact (respAddrRx_modeUnread 0x78#8).deliver 0x78#8 d
  | srDataAck d => exact (respData_modeUnread false 0x80#8).deliver 0x80#8 d
  | srDataNack d => exact (respData_modeUnread true 0x88#8).deliver 0x88#8 d
  | srGcallDataAck d => exact (respData_modeUnread false 0x90#8).deliver 0x90#8 d
  | srGcallDataNack d => exact (respData_modeUnread true 0x98#8).deliver 0x98#8 d
  | srStop d => exact (consultResp_modeUnread .onStopReceived ACT_ACK true).deliver 0xA0#8 d
  | stSlaAck d => exact (respAddrTx_modeUnread Config.stAddrLoadsFirstByte 0xA8#8).deliver 0xA8#8 d
  | stArbLostSlaAck d => exact (respAddrTx_modeUnread Config.stAddrLoadsFirstByte 0xB0#8).deliver 0xB0#8 d
  | stDataAck d => exact byteRequested_modeUnread.deliver 0xB8#8 d
  | stDataNack d => exact (consultResp_modeUnread (.onLastByte 0xC0#8) ACT_ACK true).deliver 0xC0#8 d
  | stLastData d => exact (consultResp_modeUnread (.onLastByte 0xC8#8) ACT_ACK true).deliver 0xC8#8 d
  | transmit a b l ns po => exact transferStart_modeUnread.accept (regionRefusal b l) ⟨7#4, false, a, b, l, ns, po⟩
  | receive a b l ns => exact transferStart_modeUnread.accept (regionRefusal b l) ⟨8#4, true, a, b, l, ns, false⟩
  | initController fd t hc hn =>
    exact ModeUnread.accept (run := initBody (Config.timingFn fd).1 (Config.timingFn fd).2 t hc hn) (fun _ _ => rfl) none _
  | initControllerRaw b p t hc hn => exact ModeUnread.accept (run := initBody b p t hc hn) (fun _ _ => rfl) none _
  | configureResponder a g m h2 h3 h4 h5 h6 =>
    exact ModeUnread.accept (run := configureBody a g m h2 h3 h4 h5 h6) (fun _ _ => rfl) none _
  | reset => exact ModeUnread.accept (run := fun t => .next (t.doReset.returned resultOk)) (fun _ _ => rfl) none _
  | shutDown => exact ModeUnread.accept (run := shutDownBody) (fun _ _ => rfl) none _
  | stop => exact ModeUnread.accept (run := stopStart) (fun _ _ => rfl) none _

/-! ## The checks -/

theorem afterStart_modeUnread : ModeUnread afterStart :=
  fun s m => .withField s.op .op s m fun _ => .ite rfl rfl

/-- Arming sets the mode, so the two runs are then the same. -/
theorem armAndStart_modeUnread : ModeUnread armAndStart :=
  fun s m => .withField s.op .op s m fun _ => .refl _

theorem reissueAddress_modeUnread : ModeUnread reissueAddress :=
  fun s m => .withField s.targetAddress .targetAddress s m fun a =>
    afterStart_modeUnread { s.issueByte true false false a with roleState := .busy } m

theorem checkFailed_modeUnread {onTimeout : State → State}
    (h : ∀ s m, (onTimeout (s.withMode m)).modeless = (onTimeout s).modeless) :
    ModeUnread fun s => checkFailed (onTimeout s) s :=
  fun s m => .withField s.timeoutBudget .timeoutBudget s m fun t =>
    .ite (p := s.waitK = t) (congrArg Host.Outcome.next (h s m).symm) rfl

theorem returned_checkFailed_modeUnread : ModeUnread fun s => checkFailed (s.returned resultTimedOut) s :=
  checkFailed_modeUnread fun _ _ => rfl

theorem reset_checkFailed_modeUnread : ModeUnread fun s => checkFailed (s.doReset.returned resultTimedOut) s :=
  checkFailed_modeUnread fun _ _ => rfl

theorem checkQ1_modeUnread : ModeUnread checkQ1 :=
  fun s m => .ite (p := s.quiescent = true) (armAndStart_modeUnread s m) (returned_checkFailed_modeUnread s m)

theorem checkRS_modeUnread : ModeUnread checkRS :=
  fun s m => .withField s.lastEvent .lastEvent s m fun _ =>
    .ite (reissueAddress_modeUnread s m) (reset_checkFailed_modeUnread s m)

theorem checkDone_modeUnread : ModeUnread checkDone :=
  fun s m => .ite (p := s.quiescent = true) (.withField s.lastEvent .lastEvent s m fun _ => rfl)
    (returned_checkFailed_modeUnread s m)

theorem checkStop_modeUnread : ModeUnread checkStop :=
  fun s m => .ite (p := s.stopPending = true) (reset_checkFailed_modeUnread s m) rfl

theorem check_modeUnread : ModeUnread check := by
  refine fun s m => .unlessFaulted s m ?_
  rw [State.withMode_phase]
  split
  · exact .refl _
  · exact checkQ1_modeUnread s m
  · exact checkRS_modeUnread s m
  · exact checkDone_modeUnread s m
  · exact checkStop_modeUnread s m

/-! ## Steps -/

/-- What a fetched move answers. -/
def Fetched.out : Fetched → Out
  | .run i s => exec i s
  | .done o => o

theorem step_eq_out (s : State) : step s = (fetch s).out := by
  unfold step Fetched.out
  cases fetch s <;> rfl

theorem rejected_modeUnread (r : Reject) : ModeUnread (rejected r) := by
  cases r with
  | truncated => exact fun _ _ => .refl _
  | reservedStatus sr data => exact (raise_modeUnread _).deliver (statusCode sr) data
  | _ => exact fun _ _ => rfl

theorem fetchBytes_modeUnread (p : Port) (bytes : List Byte) : ModeUnread fun s => (fetchBytes p bytes s).out := by
  intro s m
  dsimp only
  cases hd : decode p bytes with
  | instr i tail => rw [fetchBytes_run hd, fetchBytes_run hd]; exact exec_modeUnread i s m
  | reject r => rw [fetchBytes_done hd, fetchBytes_done hd]; exact rejected_modeUnread r s m

theorem clearStop_modeUnread : ModeUnread clearStop := fun s _ => .ite (p := s.stopPending = true) rfl (.refl _)

theorem idleStep_modeUnread : ModeUnread idleStep :=
  fun s m => .ite (p := s.phase = .ready) (.unlessFaulted s m (.ite (p := s.Stuck) (.refl _) rfl)) (check_modeUnread s m)

theorem step_modeUnread : ModeUnread step := by
  intro s m
  rw [step_eq_out, step_eq_out]
  unfold fetch
  rw [State.withMode_script, State.withMode_phase]
  split
  · exact idleStep_modeUnread s m
  · exact fetchBytes_modeUnread .event _ { s with script := _ } m
  · split
    · exact fetchBytes_modeUnread .host _ { s with script := _ } m
    · exact check_modeUnread s m
  · exact check_modeUnread { s with script := _ } m
  · exact clearStop_modeUnread { s with script := _ } m
  · exact rfl
  · exact rfl
  · exact rfl

/-- Settles O54: a step does not read the mode (`step_modeUnread`), so the two next states differ in it alone. -/
theorem transferModeUnread : Obligations.TransferModeUnread := by
  unfold Obligations.TransferModeUnread
  intro s t m h
  exact (step_modeUnread s m).next h

end Sys2Proof.Machine
end

section
/-! PROOF. The host operations, each as the state it leaves (40_init_config.md, 45_stop.md R260), and what that says of all of
them at once. -/

namespace Sys2Proof.Machine

/-! ## The effect of each operation on the state with its record latched -/

/-- A controller initialised (40_init_config.md R120). -/
def State.afterInit (s : State) (b : Byte) (p : BitVec 2) (tm : Half) (hc hn : Bool) : State :=
  ({ s with
    slots := { s.slots with onComplete := hc, onNackOrArbitrationLoss := hn }
    baud := b
    sr := setPrescaler s.sr p
    timeoutBudget := some tm
    roleState := .idle
    portLog := s.portLog ++ [.write .baud b, .write .sr (p.setWidth 8)] } : State).afterArm.afterReturn resultOk

/-- A responder configured, with its five slots (40_init_config.md R122). -/
def State.afterConfigure (s : State) (a : BitVec 7) (g : Bool) (m : BitVec 7) (h2 h3 h4 h5 h6 : Bool) : State :=
  ({ s with
    slots := ⟨s.slots.onComplete, s.slots.onNackOrArbitrationLoss, h2, h3, h4, h5, h6⟩
    addr := addrReg a g
    amask := amaskReg m
    portLog := s.portLog ++ [.write .addr (addrReg a g), .write .amask (amaskReg m)] } : State).afterArm.afterReturn resultOk

/-- A stop begun (45_stop.md R260). -/
def State.afterStop (s : State) : State :=
  { s.afterCommand true false true with roleState := .stopping, waitK := 0#16, phase := .waitStop }

theorem initBody_eq (s : State) (b : Byte) (p : BitVec 2) (tm : Half) (hc hn : Bool) :
    initBody b p tm hc hn s = .next (s.afterInit b p tm hc hn) := by
  simp [initBody, State.afterInit, State.writeBaud, State.writePrescaler, State.logPort, State.afterArm]

theorem configureBody_eq (s : State) (a : BitVec 7) (g : Bool) (m : BitVec 7) (h2 h3 h4 h5 h6 : Bool) :
    configureBody a g m h2 h3 h4 h5 h6 s = .next (s.afterConfigure a g m h2 h3 h4 h5 h6) := by
  simp [configureBody, State.afterConfigure, State.writeAddr, State.writeAmask, State.logPort, State.afterArm]

theorem stopStart_eq (s : State) : stopStart s = .next s.afterStop := by
  rw [stopStart, State.issue_eq]
  rfl

/-! ## The statements, operation by operation -/

section Accepted

variable {s : State} (hp : s.phase = .ready) (hf : s.faults = [])
include hp hf

theorem exec_initController_ready (fd : BitVec 32) (tm : Half) (hc hn : Bool) : exec (.initController fd tm hc hn) s =
    .next (State.afterInit { s with op := some (Op.plain 1#4) } (Config.timingFn fd).1 (Config.timingFn fd).2 tm hc hn) := by
  dsimp only [exec, execInitController]
  rw [accept_ready hp hf, initBody_eq]

theorem exec_initControllerRaw_ready (b : Byte) (p : BitVec 2) (tm : Half) (hc hn : Bool) :
    exec (.initControllerRaw b p tm hc hn) s =
      .next (State.afterInit { s with op := some (Op.plain 2#4) } b p tm hc hn) := by
  dsimp only [exec, execInitControllerRaw]
  rw [accept_ready hp hf, initBody_eq]

theorem exec_configureResponder_ready (a : BitVec 7) (g : Bool) (m : BitVec 7) (h2 h3 h4 h5 h6 : Bool) :
    exec (.configureResponder a g m h2 h3 h4 h5 h6) s =
      .next (State.afterConfigure { s with op := some { Op.plain 3#4 with address := a } } a g m h2 h3 h4 h5 h6) := by
  dsimp only [exec, execConfigureResponder]
  rw [accept_ready hp hf, configureBody_eq]

theorem exec_reset_ready :
    exec .reset s = .next (({ s with op := some (Op.plain 4#4) } : State).afterReset.afterReturn resultOk) := by
  dsimp only [exec, execReset]
  rw [accept_ready hp hf, State.doReset_eq, State.returned_eq]

theorem exec_stop_ready : exec .stop s = .next (State.afterStop { s with op := some (Op.plain 6#4) }) := by
  dsimp only [exec, execStop]
  rw [accept_ready hp hf, stopStart_eq]

end Accepted

/-- Settles O30: the two operations differ in the selector and in where the timing comes from. -/
theorem initialisesController : Obligations.InitialisesController := by
  unfold Obligations.InitialisesController
  intro s fd baud presc tm hc hn i sel hi hp hf
  simp only [List.mem_cons, Prod.mk.injEq, List.not_mem_nil, or_false] at hi
  obtain ⟨rfl, rfl, rfl, rfl⟩ | ⟨rfl, rfl, -, -⟩ := hi
  · exact exec_initController_ready hp hf fd tm hc hn
  · exact exec_initControllerRaw_ready hp hf baud presc tm hc hn

/-- Settles O31: the acceptance runs CfgResp(), whose effect is `State.afterConfigure`. -/
theorem configuresResponder : Obligations.ConfiguresResponder := by
  unfold Obligations.ConfiguresResponder
  intro s a m gc h2 h3 h4 h5 h6 hp hf
  exact exec_configureResponder_ready hp hf a gc m h2 h3 h4 h5 h6

/-- Settles O32: the acceptance runs DoReset() and Return(Ok). -/
theorem resetRearms : Obligations.ResetRearms := by
  unfold Obligations.ResetRearms
  intro s hp hf
  exact exec_reset_ready hp hf

/-- Settles O33: `exec_shutDown_ready` with the latched record written out. -/
theorem shutsDown : Obligations.ShutsDown := by
  unfold Obligations.ShutsDown
  intro s hp hf
  exact exec_shutDown_ready hp hf

/-- Settles O35: the acceptance runs StopStart(), whose effect is `State.afterStop`. -/
theorem stopIssues : Obligations.StopIssues := by
  unfold Obligations.StopIssues
  intro s hp hf
  exact exec_stop_ready hp hf

/-! ## All operations at once -/

/-- What an operation leaves, from the state with its record latched; which of the two transfers it was is left open. -/
inductive HostRan (u : State) : Instr → State → Prop
  | initController (fd : BitVec 32) (tm : Half) (hc hn : Bool) :
      HostRan u (.initController fd tm hc hn) (u.afterInit (Config.timingFn fd).1 (Config.timingFn fd).2 tm hc hn)
  | initControllerRaw (b : Byte) (p : BitVec 2) (tm : Half) (hc hn : Bool) :
      HostRan u (.initControllerRaw b p tm hc hn) (u.afterInit b p tm hc hn)
  | configureResponder (a : BitVec 7) (g : Bool) (m : BitVec 7) (h2 h3 h4 h5 h6 : Bool) :
      HostRan u (.configureResponder a g m h2 h3 h4 h5 h6) (u.afterConfigure a g m h2 h3 h4 h5 h6)
  | reset : HostRan u .reset (u.afterReset.afterReturn resultOk)
  | shutDown : HostRan u .shutDown
      (({ u with pullupEn := false, roleState := .uninitialized } : State).afterDisable.afterReturn resultOk)
  | stop : HostRan u .stop u.afterStop
  /-- A transfer from Uninitialized. -/
  | notInitialized (i : Instr) (hr : u.roleState = .uninitialized) : HostRan u i (u.afterReturn resultNotInitialized)
  /-- A transfer from any other role. -/
  | waits (i : Instr) (hr : u.roleState ≠ .uninitialized) : HostRan u i { u with waitK := 0#16, phase := .waitQ1 }

theorem transferStart_ran {u t : State} (i : Instr) (h : transferStart u = .next t) : HostRan u i t := by
  unfold transferStart at h
  split at h
  · next hr => exact Host.Outcome.next.inj h ▸ .notInitialized i hr
  · next hr => exact Host.Outcome.next.inj h ▸ .waits i hr

/-- Everything an operation can do: leave the state while phase is not Ready, be refused, or run from the state with its
record latched. -/
inductive HostOutcome (i : Instr) (s t : State) : Prop
  | waited (hp : s.phase ≠ .ready) (h : t = s)
  | refused (n : RefuseName) (hp : s.phase = .ready) (h : t = s.afterRefusal n)
  | ran (o : Op) (hp : s.phase = .ready) (h : HostRan { s with op := some o } i t)

theorem accept_outcome {i : Instr} {r : Option RefuseName} {o : Op} {run : State → Out} {s t : State}
    (h : accept r o run s = .next t) (hrun : ∀ u, run u = .next t → HostRan u i t) : HostOutcome i s t := by
  rcases accept_next h with ⟨hp, h⟩ | ⟨n, _, hp, h⟩ | ⟨_, hp, _, h⟩
  · exact .waited hp h
  · exact .refused n hp h
  · exact .ran o hp (hrun _ h)

theorem exec_host_outcome {i : Instr} {s t : State} (hp : i.port = .host) (h : exec i s = .next t) : HostOutcome i s t := by
  cases i
  case initController fd tm hc hn =>
    dsimp only [exec, execInitController] at h
    exact accept_outcome h fun u h => by
      rw [initBody_eq] at h; exact Host.Outcome.next.inj h ▸ .initController fd tm hc hn
  case initControllerRaw b p tm hc hn =>
    dsimp only [exec, execInitControllerRaw] at h
    exact accept_outcome h fun u h => by
      rw [initBody_eq] at h; exact Host.Outcome.next.inj h ▸ .initControllerRaw b p tm hc hn
  case configureResponder a g m h2 h3 h4 h5 h6 =>
    dsimp only [exec, execConfigureResponder] at h
    exact accept_outcome h fun u h => by
      rw [configureBody_eq] at h; exact Host.Outcome.next.inj h ▸ .configureResponder a g m h2 h3 h4 h5 h6
  case reset =>
    dsimp only [exec, execReset] at h
    exact accept_outcome h fun u h => by
      rw [State.doReset_eq, State.returned_eq] at h; exact Host.Outcome.next.inj h ▸ .reset
  case shutDown =>
    dsimp only [exec, execShutDown] at h
    exact accept_outcome h fun u h => by
      rw [shutDownBody, State.writeCtrl_disable, State.returned_eq] at h; exact Host.Outcome.next.inj h ▸ .shutDown
  case stop =>
    dsimp only [exec, execStop] at h
    exact accept_outcome h fun u h => by rw [stopStart_eq] at h; exact Host.Outcome.next.inj h ▸ .stop
  case transmit a b l ns po =>
    dsimp only [exec, execTransmit] at h
    exact accept_outcome h fun u h => transferStart_ran _ h
  case receive a b l ns =>
    dsimp only [exec, execReceive] at h
    exact accept_outcome h fun u h => transferStart_ran _ h
  all_goals cases hp

end Sys2Proof.Machine
end

section
/-! PROOF. What the events leave alone (10_state.md section 5), and who writes the configuration and the transfer's fields. -/

namespace Sys2Proof.Machine

/-! ## What no event writes -/

/-- The fields that no event writes; of SR its low bits. -/
structure Background where
  slots : SlotBits
  timeoutBudget : Option Half
  baud : Byte
  addr : Byte
  amask : Byte
  srLow : Byte
  pullupEn : Bool
  phase : Phase
  waitK : Half
  op : Option Op
  bufferBase : Option Half
  length : Option Half
  targetAddress : Option Byte
  results : List Byte
  refused : List RefuseName
  alloc : List Region
  script : List Move

/-- The background of a state. -/
def State.background (s : State) : Background :=
  ⟨s.slots, s.timeoutBudget, s.baud, s.addr, s.amask, s.sr &&& 0x07#8, s.pullupEn, s.phase, s.waitK, s.op, s.bufferBase,
    s.length, s.targetAddress, s.results, s.refused, s.alloc, s.script⟩

theorem RowOutcome.background {r t : State} (h : RowOutcome r t) : t.background = r.background := by
  obtain ⟨m, ⟨_, _, _, _, _, _, _, _, _, _, _, rfl⟩, hend⟩ := h
  rcases hend with ⟨_, _, _, _, _, rfl⟩ | ⟨_, _, _, rfl⟩ | ⟨_, _, rfl⟩ <;> rfl

/-- The report writes SR[7:3] alone. -/
theorem afterReport_background {code : Byte} (hc : code &&& 0xF8#8 = code) (s : State) (d : Byte) :
    (s.afterReport code d).background = s.background := by
  have hlow : ((s.sr &&& 0x07#8) ||| code) &&& 0x07#8 = s.sr &&& 0x07#8 := by
    have := setStatus_low s.sr code
    rwa [setStatus, hc] at this
  simp only [State.background, State.afterReport, hlow]

theorem exec_event_background {i : Instr} {s t : State} (hp : i.port = .event) (h : exec i s = .next t) :
    t.background = s.background := by
  obtain ⟨code, d, _, hc, _, ⟨_, hrow⟩ | ⟨_, rfl, _⟩⟩ := exec_event_next hp h
  · exact hrow.background.trans (afterReport_background hc s d)
  · exact afterReport_background hc s d

/-- Settles O55: the clauses are the fields of the background. -/
theorem eventFrame : Obligations.EventFrame := by
  unfold Obligations.EventFrame
  intro s t i hp h
  have hb := exec_event_background hp h
  exact ⟨congrArg Background.slots hb, congrArg Background.timeoutBudget hb, congrArg Background.baud hb,
    congrArg Background.addr hb, congrArg Background.amask hb, congrArg Background.srLow hb, congrArg Background.pullupEn hb,
    congrArg Background.phase hb, congrArg Background.waitK hb, congrArg Background.op hb, congrArg Background.bufferBase hb,
    congrArg Background.length hb, congrArg Background.targetAddress hb, congrArg Background.results hb,
    congrArg Background.refused hb, congrArg Background.alloc hb, congrArg Background.script hb⟩

/-! ## The writers of the configuration -/

/-- What a controller initialisation writes: the budget, BAUD, the prescaler, the two controller slots. -/
def State.controllerConfig (s : State) : Option Half × Byte × Byte × Bool × Bool :=
  (s.timeoutBudget, s.baud, s.sr &&& 0x03#8, s.slots.onComplete, s.slots.onNackOrArbitrationLoss)

/-- What configure_responder writes: ADDR, AMASK, the five responder slots. -/
def State.responderConfig (s : State) : Byte × Byte × Bool × Bool × Bool × Bool × Bool :=
  (s.addr, s.amask, s.slots.onAddressMatch, s.slots.onByteReceived, s.slots.onStopReceived, s.slots.onByteRequested,
    s.slots.onLastByte)

/-- From s to t only what the instruction i may write of the configuration has changed. -/
structure ConfiguredBy (i : Instr) (s t : State) : Prop where
  controller : t.controllerConfig = s.controllerConfig ∨
    (∃ fd tm hc hn, i = .initController fd tm hc hn) ∨ ∃ b p tm hc hn, i = .initControllerRaw b p tm hc hn
  responder : t.responderConfig = s.responderConfig ∨ ∃ a g m h2 h3 h4 h5 h6, i = .configureResponder a g m h2 h3 h4 h5 h6
  pullup : t.pullupEn = s.pullupEn ∨ i = .shutDown

theorem HostRan.configured {i : Instr} {u t : State} (h : HostRan u i t) : ConfiguredBy i u t := by
  cases h with
  | initController fd tm hc hn => exact ⟨.inr (.inl ⟨fd, tm, hc, hn, rfl⟩), .inl rfl, .inl rfl⟩
  | initControllerRaw b p tm hc hn => exact ⟨.inr (.inr ⟨b, p, tm, hc, hn, rfl⟩), .inl rfl, .inl rfl⟩
  | configureResponder a g m h2 h3 h4 h5 h6 => exact ⟨.inl rfl, .inr ⟨a, g, m, h2, h3, h4, h5, h6, rfl⟩, .inl rfl⟩
  | shutDown => exact ⟨.inl rfl, .inl rfl, .inr rfl⟩
  | _ => exact ⟨.inl rfl, .inl rfl, .inl rfl⟩

/-- The background holds the whole configuration; of SR its three low bits, the prescaler's two among them. -/
theorem ConfiguredBy.of_background {i : Instr} {s t : State} (h : t.background = s.background) : ConfiguredBy i s t := by
  have hslots : t.slots = s.slots := congrArg Background.slots h
  have hbudget : t.timeoutBudget = s.timeoutBudget := congrArg Background.timeoutBudget h
  have hbaud : t.baud = s.baud := congrArg Background.baud h
  have haddr : t.addr = s.addr := congrArg Background.addr h
  have hamask : t.amask = s.amask := congrArg Background.amask h
  have hlow : t.sr &&& 0x07#8 &&& 0x03#8 = s.sr &&& 0x07#8 &&& 0x03#8 := congrArg (·.srLow &&& 0x03#8) h
  have hprescaler : t.sr &&& 0x03#8 = s.sr &&& 0x03#8 := by simpa [BitVec.and_assoc] using hlow
  refine ⟨.inl ?_, .inl ?_, .inl (congrArg Background.pullupEn h)⟩
  · simp only [State.controllerConfig, hbudget, hbaud, hprescaler, hslots]
  · simp only [State.responderConfig, haddr, hamask, hslots]

theorem exec_configured {i : Instr} {s t : State} (h : exec i s = .next t) : ConfiguredBy i s t := by
  cases hp : i.port with
  | event => exact .of_background (exec_event_background hp h)
  | host =>
    cases exec_host_outcome hp h with
    | waited _ h => exact h ▸ ⟨.inl rfl, .inl rfl, .inl rfl⟩
    | refused n _ h => exact h ▸ ⟨.inl rfl, .inl rfl, .inl rfl⟩
    | ran o _ h => exact ⟨h.configured.controller, h.configured.responder, h.configured.pullup⟩

/-- Settles O59: a changed field is a changed part of the configuration, so its writer is the one of `exec_configured`. -/
theorem configurationWriters : Obligations.ConfigurationWriters := by
  unfold Obligations.ConfigurationWriters
  intro s t i h
  obtain ⟨hcontroller, hresponder, hpullup⟩ := exec_configured h
  refine ⟨fun hne => hcontroller.resolve_left fun heq => ?_, fun hne => hresponder.resolve_left fun heq => ?_,
    fun hne => hpullup.resolve_left hne⟩
  · simp only [State.controllerConfig, Prod.mk.injEq] at heq
    simp [heq] at hne
  · simp only [State.responderConfig, Prod.mk.injEq] at heq
    simp [heq] at hne

/-! ## What only an instruction or a check writes -/

/-- The role, the counter of a wait, the results and the three fields that an arming writes. -/
structure Progress where
  roleState : RoleState
  waitK : Half
  results : List Byte
  bufferBase : Option Half
  length : Option Half
  targetAddress : Option Byte

/-- The progress of a state. -/
def State.progress (s : State) : Progress :=
  ⟨s.roleState, s.waitK, s.results, s.bufferBase, s.length, s.targetAddress⟩

/-- A step runs an instruction, or checks, or leaves the progress. -/
inductive StepProgress (s t : State) : Prop
  | ran (p : Port) (bytes tail : List Byte) (rest : List Move) (i : Instr) (hs : s.script = portMove p bytes :: rest)
      (hd : decode p bytes = .instr i tail) (h : exec i { s with script := rest } = .next t)
  | checked (rest : List Move) (h : check { s with script := rest } = .next t)
  | left (h : t.progress = s.progress)

theorem step_progress {s t : State} (h : step s = .next t) : StepProgress s t := by
  cases step_next h with
  | instr p bytes tail rest i hs hd _ h => exact .ran p bytes tail rest i hs hd h
  | check rest _ h => exact .checked rest h
  | reserved _ _ _ _ _ _ _ h => exact .left (h ▸ rfl)
  | refusal _ _ _ _ _ h => exact .left (h ▸ rfl)
  | stopDone _ _ _ h => exact .left (h ▸ rfl)
  | answer _ _ _ h => exact .left (h ▸ rfl)
  | hostWrite _ _ _ _ h => exact .left (h ▸ rfl)
  | hostAlloc _ _ _ h => exact .left (h ▸ rfl)
  | idle _ _ _ h => exact .left (h ▸ rfl)

/-! ## The writers of the transfer's fields -/

/-- The three fields that only the arming writes. -/
def State.transferFields (s : State) : Option Half × Option Half × Option Byte :=
  (s.bufferBase, s.length, s.targetAddress)

/-- A started transfer goes on with no write but to wait_k, phase and the results. -/
theorem Started.eq {m t : State} (h : Started m t) :
    t = { m with waitK := t.waitK, phase := t.phase, results := t.results } := by
  rcases h with rfl | rfl <;> rfl

theorem CheckOutcome.transferFields {s t : State} (h : CheckOutcome s t) :
    t.transferFields = s.transferFields ∨ (s.quiescent = true ∧ s.phase = .waitQ1) := by
  cases h with
  | rearmed o hp _ hr => exact .inr ⟨s.quiescent_iff.2 (.inr hr), hp⟩
  | started o _ hp _ hr _ => exact .inr ⟨s.quiescent_iff.2 (.inl hr), hp⟩
  | reissued a _ _ _ ht => rw [ht.eq]; exact .inl rfl
  | _ => exact .inl rfl

theorem exec_event_transferFields {i : Instr} {s t : State} (hp : i.port = .event) (h : exec i s = .next t) :
    t.transferFields = s.transferFields :=
  congrArg (fun b : Background => (b.bufferBase, b.length, b.targetAddress)) (exec_event_background hp h)

theorem HostRan.transferFields {i : Instr} {u t : State} (h : HostRan u i t) : t.transferFields = u.transferFields := by
  cases h <;> rfl

theorem exec_transferFields {i : Instr} {s t : State} (h : exec i s = .next t) : t.transferFields = s.transferFields := by
  cases hp : i.port with
  | event => exact exec_event_transferFields hp h
  | host =>
    cases exec_host_outcome hp h with
    | waited _ h => rw [h]
    | refused n _ h => rw [h]; rfl
    | ran o _ h => exact h.transferFields

theorem step_transferFields {s t : State} (h : step s = .next t) :
    t.transferFields = s.transferFields ∨ (s.quiescent = true ∧ s.phase = .waitQ1) := by
  cases step_progress h with
  | ran _ _ _ _ _ _ _ h => exact .inl (exec_transferFields h :)
  | checked _ h => exact (check_next h).2.transferFields
  | left h => exact .inl (congrArg (fun p : Progress => (p.bufferBase, p.length, p.targetAddress)) h)

/-- Settles O58: only a check that arms a transfer writes one of the three, and it is in the first wait and quiescent. -/
theorem transferFieldsWrittenQuiescent : Obligations.TransferFieldsWrittenQuiescent := by
  unfold Obligations.TransferFieldsWrittenQuiescent
  intro s t h hne
  refine (step_transferFields h).resolve_left fun heq => ?_
  simp only [State.transferFields, Prod.mk.injEq] at heq
  simp [heq] at hne

end Sys2Proof.Machine
end

section
/-! PROOF. Every step keeps the invariant. Its eleven conjuncts fall into three groups, each with its own lemmas: what is
stored (memory, the transfer's fields, the record, last_event), how a wait stands, and the flag and the fault. -/

namespace Sys2Proof.Machine

/-! ## The three groups -/

/-- The conjuncts about what is stored. -/
def State.StoreInv (s : State) : Prop :=
  Memory.wf s.mem = true ∧ s.CursorBounded ∧ s.RegionInside ∧ s.OpInside ∧ s.ArmedTogether ∧ s.EventRecorded

/-- The conjuncts about a wait, its phase and the role. -/
def State.WaitInv (s : State) : Prop := s.WaitBounded ∧ s.StoppingInWaitStop ∧ s.TransferLatched

/-- The conjuncts about the pending flag and the fault. -/
def State.FlagInv (s : State) : Prop := s.HeldByStart ∧ s.OneFault

theorem State.inv_iff (s : State) : s.Inv ↔ s.StoreInv ∧ s.WaitInv ∧ s.FlagInv := by
  constructor
  · rintro ⟨memory, cursor, wait, stopping, region, opRegion, latched, armed, event, held, fault⟩
    exact ⟨⟨memory, cursor, region, opRegion, armed, event⟩, ⟨wait, stopping, latched⟩, held, fault⟩
  · rintro ⟨⟨memory, cursor, region, opRegion, armed, event⟩, ⟨wait, stopping, latched⟩, held, fault⟩
    exact ⟨memory, cursor, wait, stopping, region, opRegion, latched, armed, event, held, fault⟩

/-! ## What is stored -/

/-- The cursor advances only below the length, so it stays within it. -/
theorem State.CursorBounded.advance {s : State} {c l : Half} (hl : s.length = some l) (hlt : c < l) :
    State.CursorBounded { s with cursor := some (c + 1#16) } := by
  intro c' l' hc' hl'
  obtain rfl : c + 1#16 = c' := Option.some.inj hc'
  obtain rfl : l = l' := Option.some.inj (hl.symm.trans hl')
  bv_omega

theorem Between.storeInv {r m : State} (h : Between r m) (hr : r.StoreInv) : m.StoreInv := by
  obtain ⟨memory, cursor, region, opRegion, ⟨hbl, hlc, hct⟩, event⟩ := hr
  obtain ⟨rd, mode, ans, n, cs, cur, mem, _, _, hcur, hmem, rfl⟩ := h
  have hwf : Memory.wf mem = true := by
    rcases hmem with rfl | ⟨base, c, _, _, rfl⟩
    · exact memory
    · exact Memory.write_wf memory _ _
  rcases hcur with rfl | ⟨c, l, hc, hl, hlt, rfl⟩
  · exact ⟨hwf, cursor, region, opRegion, ⟨hbl, hlc, hct⟩, event⟩
  · have hsome : r.cursor.isSome = (some (c + 1#16)).isSome := by rw [hc]; rfl
    exact ⟨hwf, State.CursorBounded.advance hl hlt, region, opRegion, ⟨hbl, hlc.trans hsome, hsome.symm.trans hct⟩,
      event⟩

theorem RowOutcome.storeInv {r t : State} (h : RowOutcome r t) (hr : r.StoreInv) : t.StoreInv := by
  obtain ⟨m, hbetween, hend⟩ := h
  have hm := hbetween.storeInv hr
  rcases hend with ⟨_, _, _, _, _, rfl⟩ | ⟨_, _, _, rfl⟩ | ⟨_, _, rfl⟩ <;> exact hm

theorem afterReport_storeInv {s : State} {code : Byte} (hc : code &&& 0xF8#8 = code) (d : Byte) (hs : s.StoreInv) :
    (s.afterReport code d).StoreInv := by
  obtain ⟨memory, cursor, region, opRegion, armed, _⟩ := hs
  refine ⟨memory, cursor, region, opRegion, armed, fun e he => ?_⟩
  have hcode : statusCode ((s.sr &&& 0x07#8) ||| code) = code := by
    have := statusCode_setStatus s.sr code
    rwa [setStatus, hc] at this
  exact (Option.some.inj he).symm.trans hcode.symm

theorem exec_event_storeInv {i : Instr} {s t : State} (hp : i.port = .event) (h : exec i s = .next t) (hs : s.StoreInv) :
    t.StoreInv := by
  obtain ⟨code, d, _, hc, _, ⟨_, hrow⟩ | ⟨_, rfl, _⟩⟩ := exec_event_next hp h
  · exact hrow.storeInv (afterReport_storeInv hc d hs)
  · exact afterReport_storeInv hc d hs

/-- An accepted operation stores only its record, whose region does not wrap. -/
theorem HostEffect.storeInv {s t : State} (h : HostEffect s t) (hs : s.StoreInv) : t.StoreInv := by
  obtain ⟨o, ho, hop, _, hbase, hlen, hcur, htgt, hev, hsr, hmem, _⟩ := h
  obtain ⟨memory, cursor, region, _, armed, event⟩ := hs
  refine ⟨hmem ▸ memory, ?_, ?_, ?_, ?_, ?_⟩
  · rwa [State.CursorBounded, hcur, hlen]
  · rwa [State.RegionInside, hbase, hlen]
  · intro o' ho'
    rw [hop] at ho'
    exact Option.some.inj ho' ▸ ho
  · rwa [State.ArmedTogether, hbase, hlen, hcur, htgt]
  · rwa [State.EventRecorded, hev, hsr]

/-- The arming takes the record's region, with the cursor at 0. -/
theorem armed_storeInv {s : State} {o : Op} (ho : s.op = some o) (hs : s.StoreInv) : (s.armed o).StoreInv := by
  obtain ⟨memory, _, _, opRegion, _, event⟩ := hs
  refine ⟨memory, ?_, ?_, opRegion, ⟨rfl, rfl, rfl⟩, event⟩
  · intro c l hc _
    obtain rfl : 0#16 = c := Option.some.inj hc
    exact Nat.zero_le _
  · intro b l hb hl
    obtain rfl : o.buf = b := Option.some.inj hb
    obtain rfl : o.len = l := Option.some.inj hl
    exact opRegion o ho

theorem CheckOutcome.storeInv {s t : State} (h : CheckOutcome s t) (hs : s.StoreInv) : t.StoreInv := by
  cases h with
  | rearmed o _ ho _ => exact (armed_storeInv ho hs :)
  | started o _ _ ho _ ht =>
    have hm : (s.startIssued o).StoreInv := by
      have harmed := armed_storeInv ho hs
      unfold State.startIssued
      split <;> exact harmed
    rw [ht.eq]
    exact hm
  | reissued _ _ _ _ ht => rw [ht.eq]; exact hs
  | _ => exact hs

/-! ## The wait -/

/-- Outside the stop wait the role is not Stopping. -/
theorem State.WaitInv.not_stopping {s : State} (h : s.WaitInv) (hp : s.phase ≠ .waitStop) : s.roleState ≠ .stopping :=
  fun hr => hp (h.2.1 hr)

/-- With phase Ready only the role matters. -/
theorem State.WaitInv.of_ready {t : State} (hp : t.phase = .ready) (hr : t.roleState ≠ .stopping) : t.WaitInv := by
  refine ⟨fun hne => absurd hp hne, fun hs => absurd hs hr, fun hw => ?_⟩
  rw [hp] at hw
  simp at hw

/-- A wait just begun has made no check. -/
theorem State.WaitInv.of_begun {t : State} (hk : t.waitK = 0#16) (hs : t.StoppingInWaitStop) (hl : t.TransferLatched) :
    t.WaitInv := by
  refine ⟨fun _ b _ => ?_, hs, hl⟩
  rw [hk]
  exact Nat.zero_le _

/-- The wait goes on as it stood; the role may become Idle or RepeatedStartPending. -/
theorem State.WaitInv.of_kept {s t : State} (h : s.WaitInv) (hp : t.phase = s.phase) (hk : t.waitK = s.waitK)
    (hb : t.timeoutBudget = s.timeoutBudget) (ho : t.op = s.op)
    (hr : t.roleState = s.roleState ∨ t.roleState = .idle ∨ t.roleState = .repeatedStartPending) : t.WaitInv := by
  obtain ⟨wait, stopping, latched⟩ := h
  refine ⟨?_, fun hs => ?_, fun hw => ?_⟩
  · rwa [State.WaitBounded, hp, hk, hb]
  · rcases hr with hr | hr | hr
    · rw [hp]; exact stopping (hr ▸ hs)
    · rw [hr] at hs; cases hs
    · rw [hr] at hs; cases hs
  · rw [hp] at hw
    obtain ⟨hrole, hlatched⟩ := latched hw
    refine ⟨?_, by rwa [ho]⟩
    rcases hr with hr | hr | hr
    · rwa [hr]
    · rw [hr]; decide
    · rw [hr]; decide

/-- The role that a row's end leaves, by its code. -/
theorem RowOutcome.role {r t : State} (h : RowOutcome r t) : RowRole r t.roleState := by
  obtain ⟨m, hbetween, hend⟩ := h
  obtain ⟨hrole, _⟩ := hbetween.fields
  rcases hend with ⟨_, _, _, _, hr, rfl⟩ | ⟨_, _, _, rfl⟩ | ⟨_, _, rfl⟩
  · exact hr
  · exact .inl hrole
  · exact .inl hrole

/-- The role that an event leaves: its own, or one that the terminal codes or a bus error leave. -/
theorem exec_event_role {i : Instr} {s t : State} (hp : i.port = .event) (h : exec i s = .next t) :
    ∃ code d, encode i = [code, d] ∧ (t.roleState = s.roleState ∨
      (t.roleState = .idle ∧ (code ∈ terminalCodes ∨ code = 0x00#8)) ∨
      (t.roleState = .repeatedStartPending ∧ code ∈ terminalCodes)) := by
  obtain ⟨code, d, henc, _, _, ⟨_, hrow⟩ | ⟨_, rfl, _⟩⟩ := exec_event_next hp h
  · have hcode : ByCode (s.afterReport code d) terminalCodes → code ∈ terminalCodes := by
      rintro ⟨c, hc, hev⟩
      exact Option.some.inj hev ▸ hc
    refine ⟨code, d, henc, ?_⟩
    rcases hrow.role with hr | ⟨hr, hc⟩ | ⟨hr, hc⟩
    · exact .inl hr
    · exact .inr (.inl ⟨hr, hc.imp hcode fun hev => Option.some.inj hev⟩)
    · exact .inr (.inr ⟨hr, hcode hc⟩)
  · exact ⟨code, d, henc, .inl rfl⟩

theorem exec_event_waitInv {i : Instr} {s t : State} (hp : i.port = .event) (h : exec i s = .next t) (hs : s.WaitInv) :
    t.WaitInv := by
  have hb := exec_event_background hp h
  obtain ⟨_, _, _, hr⟩ := exec_event_role hp h
  exact hs.of_kept (congrArg Background.phase hb) (congrArg Background.waitK hb) (congrArg Background.timeoutBudget hb)
    (congrArg Background.op hb) (hr.imp_right (.imp And.left And.left))

/-- An accepted operation ends at once, or begins the first wait with a transfer latched, or begins the stop wait. -/
theorem HostEffect.waitInv {s t : State} (h : HostEffect s t) (hp : s.phase = .ready) (hs : s.WaitInv) : t.WaitInv := by
  have hrole : s.roleState ≠ .stopping := hs.not_stopping (by rw [hp]; decide)
  obtain ⟨o, _, hop, hend, _⟩ := h
  rcases hend with ⟨hready, hr⟩ | ⟨hwait, hk, _, hr, hinit, hsel⟩ | ⟨hwait, hk, _, _⟩
  · refine .of_ready hready ?_
    rcases hr with hr | hr | hr
    · rwa [hr]
    · rw [hr]; decide
    · rw [hr]; decide
  · exact .of_begun hk (fun hst => absurd (hr ▸ hst) hrole) fun _ => ⟨by rwa [hr], o, hop, hsel⟩
  · refine .of_begun hk (fun _ => hwait) fun hw => ?_
    rw [hwait] at hw
    simp at hw

/-- A started transfer returns at once or begins the wait for completion. -/
theorem Started.waitInv {m t : State} (h : Started m t) (hr : m.roleState = .busy)
    (hl : ∃ o, m.op = some o ∧ (o.selector = 7#4 ∨ o.selector = 8#4)) : t.WaitInv := by
  have hstop : m.roleState ≠ .stopping := by rw [hr]; decide
  have hinit : m.roleState ≠ .uninitialized := by rw [hr]; decide
  rcases h with rfl | rfl
  · exact .of_ready rfl hstop
  · exact .of_begun rfl (fun hs => absurd hs hstop) fun _ => ⟨hinit, hl⟩

theorem State.WaitBounded.count {s : State} {b : Half} (h : s.WaitBounded) (hp : s.phase ≠ .ready)
    (hb : s.timeoutBudget = some b) (hk : s.waitK ≠ b) : State.WaitBounded { s with waitK := s.waitK + 1#16 } := by
  intro _ b' hb'
  obtain rfl : b = b' := Option.some.inj (hb.symm.trans hb')
  have hle := h hp b hb
  bv_omega

theorem CheckOutcome.waitInv {s t : State} (h : CheckOutcome s t) (hs : s.WaitInv) : t.WaitInv := by
  have hrole := hs.not_stopping
  have hidle : RoleState.idle ≠ .stopping := by decide
  obtain ⟨wait, stopping, latched⟩ := hs
  cases h with
  | rearmed o hp _ hr =>
    have hst : s.roleState ≠ .stopping := by rw [hr]; decide
    have hinit : s.roleState ≠ .uninitialized := by rw [hr]; decide
    exact .of_begun rfl (fun h => absurd h hst) fun _ => ⟨hinit, (latched (.inl hp)).2⟩
  | started o _ hp _ _ ht =>
    have hop : (s.startIssued o).op = s.op := s.startIssued_op o
    exact ht.waitInv rfl (hop ▸ (latched (.inl hp)).2)
  | reissued a _ hp _ ht => exact ht.waitInv rfl (latched (.inr (.inl hp))).2
  | reissueFault a hp _ ho =>
    obtain ⟨_, _, hop, _⟩ := latched (.inr (.inl hp))
    simp [ho] at hop
  | completed _ hp _ => exact .of_ready rfl (hrole (by rw [hp]; decide))
  | stopped => exact .of_ready rfl hidle
  | counted b hb hk hp => exact ⟨State.WaitBounded.count wait hp hb hk, stopping, latched⟩
  | timedOut _ hp => exact .of_ready rfl (hrole (by rcases hp with hp | hp <;> rw [hp] <;> decide))
  | timedOutReset => exact .of_ready rfl hidle
  | fault => exact ⟨wait, stopping, latched⟩

/-! ## The flag and the fault -/

theorem State.FlagInv.of_fault {t : State} {f : FaultReason} (hf : t.faults = [f]) : t.FlagInv := by
  refine ⟨fun _ hnone => ?_, ?_⟩
  · rw [hf] at hnone
    cases hnone
  · rw [State.OneFault, hf]
    exact Nat.le_refl 1

theorem State.FlagInv.of_cleared {t : State} (hi : t.irqFlag = false) (hf : t.faults = []) : t.FlagInv := by
  refine ⟨fun hirq => ?_, ?_⟩
  · rw [hi] at hirq
    cases hirq
  · rw [State.OneFault, hf]
    exact Nat.zero_le 1

theorem State.FlagInv.of_kept {s t : State} (h : s.FlagInv) (hi : t.irqFlag = false ∨ t.irqFlag = s.irqFlag)
    (hf : t.faults = s.faults) (hev : t.lastEvent = s.lastEvent) : t.FlagInv := by
  obtain ⟨held, fault⟩ := h
  refine ⟨fun hirq hnone => ?_, by rwa [State.OneFault, hf]⟩
  rw [hev]
  rcases hi with hi | hi
  · rw [hi] at hirq
    cases hirq
  · exact held (hi ▸ hirq) (hf ▸ hnone)

/-- Every end of a row clears the flag or records a fault. -/
theorem RowOutcome.flagInv {r t : State} (h : RowOutcome r t) (hf : r.faults = []) : t.FlagInv := by
  obtain ⟨m, hbetween, hend⟩ := h
  obtain ⟨_, hfaults, _⟩ := hbetween.fields
  rcases hend with ⟨_, _, _, _, _, rfl⟩ | ⟨_, _, _, rfl⟩ | ⟨_, _, rfl⟩
  · exact .of_cleared rfl (hfaults.trans hf)
  · exact .of_cleared rfl (hfaults.trans hf)
  · exact .of_fault rfl

/-- An event's row ends with the flag cleared or a fault, or holds a START with the flag set. -/
theorem exec_event_flagInv {i : Instr} {s t : State} (hp : i.port = .event) (h : exec i s = .next t) : t.FlagInv := by
  obtain ⟨code, d, henc, _, hen, ⟨_, hrow⟩ | ⟨_, rfl, hstart⟩⟩ := exec_event_next hp h
  · exact hrow.flagInv (State.faults_of_enabled (s := s) hen)
  · have hf : s.faults = [] := State.faults_of_enabled hen
    refine ⟨fun _ _ => ?_, ?_⟩
    · rcases hstart with rfl | rfl <;> cases henc
      · exact .inl rfl
      · exact .inr rfl
    · change s.faults.length ≤ 1
      rw [hf]
      exact Nat.zero_le 1

theorem HostEffect.flagInv {s t : State} (h : HostEffect s t) (hs : s.FlagInv) : t.FlagInv := by
  obtain ⟨_, _, _, _, _, _, _, _, hev, _, _, _, hf, _, _, hi⟩ := h
  exact hs.of_kept hi hf hev

/-- A check records a fault or leaves the faults, and it leaves last_event. -/
theorem CheckOutcome.marks {s t : State} (h : CheckOutcome s t) :
    (∃ f, t.faults = [f]) ∨ (t.faults = s.faults ∧ t.lastEvent = s.lastEvent) := by
  cases h with
  | started o _ _ _ _ ht =>
    rw [ht.eq]
    refine .inr ?_
    dsimp only
    split <;> exact ⟨rfl, rfl⟩
  | reissued _ _ _ _ ht => rw [ht.eq]; exact .inr ⟨rfl, rfl⟩
  | reissueFault => exact .inl ⟨_, rfl⟩
  | fault => exact .inl ⟨_, rfl⟩
  | _ => exact .inr ⟨rfl, rfl⟩

theorem CheckOutcome.flagInv {s t : State} (h : CheckOutcome s t) (hs : s.FlagInv) : t.FlagInv := by
  have hi : t.irqFlag = false ∨ t.irqFlag = s.irqFlag := h.pending.symm.imp_left And.left
  rcases h.marks with ⟨_, hf⟩ | ⟨hf, hev⟩
  · exact .of_fault hf
  · exact hs.of_kept hi hf hev

/-! ## The invariant -/

theorem exec_event_inv {i : Instr} {s t : State} (hp : i.port = .event) (h : exec i s = .next t) (hs : s.Inv) : t.Inv := by
  obtain ⟨hstore, hwait, _⟩ := s.inv_iff.1 hs
  exact t.inv_iff.2 ⟨exec_event_storeInv hp h hstore, exec_event_waitInv hp h hwait, exec_event_flagInv hp h⟩

/-- A state with other moves, answers or marks of refusal has the same invariant. -/
theorem State.Inv.of_same {s t : State} (hs : s.Inv) (hstore : s.StoreInv → t.StoreInv) (hwait : s.WaitInv → t.WaitInv)
    (hflag : s.FlagInv → t.FlagInv) : t.Inv := by
  obtain ⟨h1, h2, h3⟩ := s.inv_iff.1 hs
  exact t.inv_iff.2 ⟨hstore h1, hwait h2, hflag h3⟩

theorem afterRefusal_inv {s : State} (n : RefuseName) (hs : s.Inv) : (s.afterRefusal n).Inv :=
  State.Inv.of_same hs id id id

theorem withScript_inv {s : State} (rest : List Move) (hs : s.Inv) : State.Inv { s with script := rest } :=
  State.Inv.of_same hs id id id

theorem exec_host_inv {i : Instr} {s t : State} (hp : i.port = .host) (h : exec i s = .next t) (hs : s.Inv) : t.Inv := by
  rcases exec_host_next hp h with ⟨_, rfl⟩ | ⟨_, _, rfl⟩ | ⟨hready, _, heff⟩
  · exact hs
  · exact afterRefusal_inv _ hs
  · exact State.Inv.of_same hs heff.storeInv (heff.waitInv hready) heff.flagInv

theorem exec_inv {i : Instr} {s t : State} (h : exec i s = .next t) (hs : s.Inv) : t.Inv := by
  cases hp : i.port with
  | event => exact exec_event_inv hp h hs
  | host => exact exec_host_inv hp h hs

theorem check_inv {s t : State} (h : check s = .next t) (hs : s.Inv) : t.Inv := by
  obtain ⟨_, hout⟩ := check_next h
  exact State.Inv.of_same hs hout.storeInv hout.waitInv hout.flagInv

/-- A reserved code is recorded in last_event as the status field, and its fault is the only one. -/
theorem reserved_inv {s : State} (sr data : Byte) (hs : s.Inv) : State.Inv
    { s.afterReport (statusCode sr) data with faults := [.unrecognisedEvent (statusCode sr)] } :=
  State.Inv.of_same hs (fun hstore => afterReport_storeInv (statusCode_idem sr) data hstore) id fun _ => .of_fault rfl

theorem hostWrite_inv {s : State} (a : Half) (v : Byte) (hs : s.Inv) :
    State.Inv { s with mem := Memory.write s.mem a.toNat v } :=
  State.Inv.of_same hs (fun ⟨hmem, hrest⟩ => ⟨Memory.write_wf hmem a v, hrest⟩) id id

/-- Settles O44: whatever a step does (`step_next`), it keeps each of the three groups. -/
theorem stepKeepsInv : Obligations.StepKeepsInv := by
  unfold Obligations.StepKeepsInv
  intro s t hs h
  cases step_next h with
  | instr _ _ _ rest _ _ _ _ h => exact exec_inv h (withScript_inv rest hs)
  | reserved _ sr data rest _ _ _ h => exact h ▸ reserved_inv sr data (withScript_inv rest hs)
  | refusal n _ rest _ _ h => exact h ▸ afterRefusal_inv n (withScript_inv rest hs)
  | check rest _ h => exact check_inv h (withScript_inv rest hs)
  | stopDone _ _ _ h => exact h ▸ State.Inv.of_same hs id id id
  | answer _ _ _ h => exact h ▸ State.Inv.of_same hs id id id
  | hostWrite a v rest _ h => exact h ▸ hostWrite_inv a v (withScript_inv rest hs)
  | hostAlloc _ _ _ h => exact h ▸ State.Inv.of_same hs id id id
  | idle _ _ _ h => exact h ▸ hs

/-- Settles O45: at power-on no field is written, phase is Ready, the role is not Stopping and the flag is 0. -/
theorem resetInv : Obligations.ResetInv := by
  unfold Obligations.ResetInv
  have hstore : State.reset.StoreInv :=
    ⟨Memory.reset_wf, nofun, nofun, nofun, ⟨rfl, rfl, rfl⟩, nofun⟩
  exact State.reset.inv_iff.2 ⟨hstore, .of_ready rfl (by decide), .of_cleared rfl rfl⟩

end Sys2Proof.Machine
end

section
/-! PROOF. What every step does to the stop-pending flag (10_state.md R37), to the results (00_scope.md R12), to wait_k
(10_state.md R33) and to the role (10_state.md R28). -/

namespace Sys2Proof.Machine

/-! ## The stop-pending flag -/

/-- From s to t a value with the property P was written to CTRL. -/
def CtrlWritten (P : Byte → Prop) (s t : State) : Prop :=
  ∃ ops v, t.portLog = s.portLog ++ ops ∧ .write .ctrl v ∈ ops ∧ P v

/-- What a step that is not ClearStop does to the flag: keep it, set it by STOP 1, or clear it by ENABLE 0. -/
def StopKeptOrWritten (s t : State) : Prop :=
  t.stopPending = s.stopPending ∨ (t.stopPending = true ∧ CtrlWritten (fun v => v.getLsbD 4 = true) s t) ∨
    (t.stopPending = false ∧ CtrlWritten (fun v => v.getLsbD 2 = false) s t)

theorem CtrlWritten.of_log_extended {P : Byte → Prop} {s u t : State} (hp : s.portLog <+: u.portLog)
    (h : CtrlWritten P u t) : CtrlWritten P s t := by
  obtain ⟨pre, hpre⟩ := hp
  obtain ⟨ops, v, hlog, hmem, hv⟩ := h
  exact ⟨pre ++ ops, v, by rw [hlog, ← hpre, List.append_assoc], List.mem_append_right pre hmem, hv⟩

/-- Accesses before the write of CTRL that leave the flag do not matter. -/
theorem StopKeptOrWritten.of_log_extended {s u t : State} (hp : s.portLog <+: u.portLog) (hu : u.stopPending = s.stopPending)
    (h : StopKeptOrWritten u t) : StopKeptOrWritten s t := by
  rcases h with h | ⟨ht, h⟩ | ⟨ht, h⟩
  · exact .inl (h.trans hu)
  · exact .inr (.inl ⟨ht, h.of_log_extended hp⟩)
  · exact .inr (.inr ⟨ht, h.of_log_extended hp⟩)

theorem cmd_stopBit (ack sta : Bool) : (cmd ack sta true).getLsbD 4 = true := cmd_bit4 ack sta true

/-- A command sets the flag only with STOP 1. -/
theorem afterCommand_stopFlag (s : State) (ack sta sto : Bool) : StopKeptOrWritten s (s.afterCommand ack sta sto) := by
  cases sto with
  | false => exact .inl (Bool.or_false _)
  | true => exact .inr (.inl ⟨Bool.or_true _, _, _, rfl, List.mem_singleton_self _, cmd_stopBit ack sta⟩)

/-- A command that sends a byte has no STOP in this machine, and then leaves the flag. -/
theorem afterByteCommand_stopFlag (s : State) (ack sta : Bool) (b : Byte) :
    StopKeptOrWritten s (s.afterByteCommand ack sta false b) := .inl (Bool.or_false _)

theorem afterDisable_stopFlag (s : State) : StopKeptOrWritten s s.afterDisable :=
  .inr (.inr ⟨rfl, _, _, rfl, List.mem_singleton_self _, rfl⟩)

theorem afterReset_stopFlag (s : State) : StopKeptOrWritten s s.afterReset :=
  .inr (.inr ⟨rfl, _, 0x00#8, List.append_assoc _ _ _, by simp, rfl⟩)

theorem Between.stopFlag {r m : State} (h : Between r m) : r.portLog <+: m.portLog ∧ m.stopPending = r.stopPending := by
  obtain ⟨rd, _, _, _, _, _, _, _, _, _, _, rfl⟩ := h
  exact ⟨List.prefix_append _ rd, rfl⟩

theorem RowOutcome.stopFlag {r t : State} (h : RowOutcome r t) : StopKeptOrWritten r t := by
  obtain ⟨m, hbetween, hend⟩ := h
  obtain ⟨hlog, hflag⟩ := hbetween.stopFlag
  refine .of_log_extended hlog hflag ?_
  rcases hend with ⟨ack, sta, sto, _, _, rfl⟩ | ⟨ack, sta, v, rfl⟩ | ⟨_, _, rfl⟩
  · exact afterCommand_stopFlag m ack sta sto
  · exact afterByteCommand_stopFlag m ack sta v
  · exact .inl rfl

theorem exec_event_stopFlag {i : Instr} {s t : State} (hp : i.port = .event) (h : exec i s = .next t) :
    StopKeptOrWritten s t := by
  obtain ⟨code, d, _, _, _, ⟨_, hrow⟩ | ⟨_, rfl, _⟩⟩ := exec_event_next hp h
  · exact .of_log_extended (u := s.afterReport code d) (List.prefix_append _ _) rfl hrow.stopFlag
  · exact .inl rfl

theorem HostRan.stopFlag {i : Instr} {u t : State} (h : HostRan u i t) : StopKeptOrWritten u t := by
  cases h with
  | reset => exact afterReset_stopFlag u
  | shutDown => exact afterDisable_stopFlag u
  | stop => exact afterCommand_stopFlag u true false true
  | _ => exact .inl rfl

theorem exec_stopFlag {i : Instr} {s t : State} (h : exec i s = .next t) : StopKeptOrWritten s t := by
  cases hp : i.port with
  | event => exact exec_event_stopFlag hp h
  | host =>
    cases exec_host_outcome hp h with
    | waited _ h => exact .inl (h ▸ rfl)
    | refused n _ h => exact .inl (h ▸ rfl)
    | ran o _ h => exact h.stopFlag

/-- Going on after a start touches neither the flag nor the port. -/
theorem Started.stopFlag {s m t : State} (ht : Started m t) (h : StopKeptOrWritten s m) : StopKeptOrWritten s t := by
  rw [ht.eq]
  exact h

theorem CheckOutcome.stopFlag {s t : State} (h : CheckOutcome s t) : StopKeptOrWritten s t := by
  cases h with
  | started o _ _ _ _ ht =>
    refine ht.stopFlag ?_
    cases o.noStart with
    | true => exact .inl rfl
    | false => exact afterCommand_stopFlag (s.armed o) true true false
  | reissued a _ _ _ ht => exact ht.stopFlag (afterByteCommand_stopFlag s true false a)
  | reissueFault a => exact afterByteCommand_stopFlag s true false a
  | timedOutReset => exact afterReset_stopFlag s
  | _ => exact .inl rfl

theorem step_stopFlag {s t : State} (h : step s = .next t) :
    (∃ rest, s.script = .stopDone :: rest ∧ t.stopPending = false) ∨ StopKeptOrWritten s t := by
  cases step_next h with
  | instr _ _ _ _ _ _ _ _ h => exact .inr (exec_stopFlag h :)
  | check _ _ h => exact .inr (check_next h).2.stopFlag
  | stopDone rest hs _ h => exact .inl ⟨rest, hs, h ▸ rfl⟩
  | reserved _ _ _ _ _ _ _ h => exact .inr (.inl (h ▸ rfl))
  | refusal _ _ _ _ _ h => exact .inr (.inl (h ▸ rfl))
  | answer _ _ _ h => exact .inr (.inl (h ▸ rfl))
  | hostWrite _ _ _ _ h => exact .inr (.inl (h ▸ rfl))
  | hostAlloc _ _ _ h => exact .inr (.inl (h ▸ rfl))
  | idle _ _ _ h => exact .inr (.inl (h ▸ rfl))

/-- Settles O50: a step is ClearStop, which clears the flag, or it does to the flag what `StopKeptOrWritten` says. -/
theorem stopPendingChanges : Obligations.StopPendingChanges := by
  unfold Obligations.StopPendingChanges
  refine ⟨rfl, fun s t h => ⟨fun h0 h1 => ?_, fun h1 h0 => ?_⟩⟩
  · rcases step_stopFlag h with ⟨_, _, hclr⟩ | hkeep | ⟨_, hwrite⟩ | ⟨hclr, _⟩
    · simp [hclr] at h1
    · simp [hkeep, h0] at h1
    · exact hwrite
    · simp [hclr] at h1
  · rcases step_stopFlag h with ⟨rest, hs, _⟩ | hkeep | ⟨hset, _⟩ | ⟨_, hwrite⟩
    · exact .inl ⟨rest, hs⟩
    · simp [hkeep, h1] at h0
    · simp [hset] at h0
    · exact .inr hwrite

/-! ## The results -/

/-- A result: a driver status, or the bus condition code of last_event with its low bits 0 (30_encoding.md R94). -/
def IsResult (s : State) (v : Byte) : Prop :=
  v ∈ [0x01#8, 0x02#8, 0x03#8, 0x04#8] ∨ (s.lastEvent = some v ∧ v &&& 0x07#8 = 0#8)

/-- From s to t nothing is returned, or one result, and then phase is Ready. -/
def ReturnsAtMostOne (s t : State) : Prop :=
  t.results = s.results ∨ (t.phase = .ready ∧ ∃ v, t.results = s.results ++ [v] ∧ IsResult s v)

theorem statusCode_low (sr : Byte) : statusCode sr &&& 0x07#8 = 0#8 := by
  rw [statusCode, BitVec.and_assoc]
  exact BitVec.and_zero

theorem HostRan.returns {i : Instr} {u t : State} (h : HostRan u i t) : ReturnsAtMostOne u t := by
  cases h with
  | stop => exact .inl rfl
  | waits => exact .inl rfl
  | notInitialized => exact .inr ⟨rfl, _, rfl, .inl (by decide)⟩
  | _ => exact .inr ⟨rfl, resultOk, rfl, .inl (by decide)⟩

theorem Started.returns {s m t : State} (h : Started m t) (hm : m.results = s.results) : ReturnsAtMostOne s t := by
  rcases h with rfl | rfl
  · exact .inr ⟨rfl, 0x04#8, congrArg (· ++ _) hm, .inl (by decide)⟩
  · exact .inl hm

theorem CheckOutcome.returns {s t : State} (h : CheckOutcome s t) (hev : s.EventRecorded) : ReturnsAtMostOne s t := by
  cases h with
  | started o _ _ _ _ ht =>
    refine ht.returns ?_
    dsimp only
    split <;> rfl
  | reissued _ _ _ _ ht => exact ht.returns rfl
  | completed ev _ hl =>
    have hlow : ev &&& 0x07#8 = 0#8 := by rw [hev ev hl, statusCode_low]
    exact .inr ⟨rfl, ev, rfl, .inr ⟨hl, hlow⟩⟩
  | stopped => exact .inr ⟨rfl, 0x01#8, rfl, .inl (by decide)⟩
  | timedOut => exact .inr ⟨rfl, 0x03#8, rfl, .inl (by decide)⟩
  | timedOutReset => exact .inr ⟨rfl, 0x03#8, rfl, .inl (by decide)⟩
  | _ => exact .inl rfl

theorem exec_returns {i : Instr} {s t : State} (h : exec i s = .next t) : ReturnsAtMostOne s t := by
  cases hp : i.port with
  | event => exact .inl (congrArg Background.results (exec_event_background hp h))
  | host =>
    cases exec_host_outcome hp h with
    | waited _ h => exact .inl (h ▸ rfl)
    | refused n _ h => exact .inl (h ▸ rfl)
    | ran o _ h => exact h.returns

/-- Settles O52: only host operations and checks return, each at most once; the bus condition code is last_event, which
by the invariant is the status field of SR. -/
theorem returnsOneResult : Obligations.ReturnsOneResult := by
  unfold Obligations.ReturnsOneResult
  intro s t hinv h
  have hreturns : ReturnsAtMostOne s t := by
    cases step_progress h with
    | ran _ _ _ _ _ _ _ h => exact (exec_returns h :)
    | checked _ h => exact (check_next h).2.returns hinv.event
    | left h => exact .inl (congrArg Progress.results h)
  exact hreturns

/-! ## The counter of a wait -/

/-- What a step does to wait_k: keep it, begin another wait, or count one delay and nothing else but the script. -/
def WaitKeptBegunOrCounted (s t : State) : Prop :=
  t.waitK = s.waitK ∨ (t.waitK = 0#16 ∧ t.phase ≠ .ready ∧ t.phase ≠ s.phase) ∨
    (t = { s with script := t.script, waitK := s.waitK + 1#16 } ∧ s.phase ≠ .ready)

/-- An operation is accepted in phase Ready, so that a wait it begins is another phase. -/
theorem HostRan.waitCounter {i : Instr} {u t : State} (h : HostRan u i t) (hp : u.phase = .ready) :
    WaitKeptBegunOrCounted u t := by
  cases h with
  | stop => exact .inr (.inl ⟨rfl, nofun, fun h => nomatch h.trans hp⟩)
  | waits => exact .inr (.inl ⟨rfl, nofun, fun h => nomatch h.trans hp⟩)
  | _ => exact .inl rfl

theorem Started.waitCounter {s m t : State} (h : Started m t) (hk : m.waitK = s.waitK) (hp : s.phase ≠ .waitDone) :
    WaitKeptBegunOrCounted s t := by
  rcases h with rfl | rfl
  · exact .inl hk
  · exact .inr (.inl ⟨rfl, nofun, hp.symm⟩)

theorem CheckOutcome.waitCounter {s t : State} (h : CheckOutcome s t) : WaitKeptBegunOrCounted s t := by
  cases h with
  | rearmed _ hp => exact .inr (.inl ⟨rfl, nofun, fun h => nomatch h.trans hp⟩)
  | started o _ hp _ _ ht =>
    refine ht.waitCounter ?_ (by rw [hp]; decide)
    dsimp only
    split <;> rfl
  | reissued _ _ hp _ ht => exact ht.waitCounter rfl (by rw [hp]; decide)
  | counted _ _ _ hp => exact .inr (.inr ⟨rfl, hp⟩)
  | _ => exact .inl rfl

theorem exec_waitCounter {i : Instr} {s t : State} (h : exec i s = .next t) : WaitKeptBegunOrCounted s t := by
  cases hp : i.port with
  | event => exact .inl (congrArg Background.waitK (exec_event_background hp h))
  | host =>
    cases exec_host_outcome hp h with
    | waited _ h => exact .inl (h ▸ rfl)
    | refused n _ h => exact .inl (h ▸ rfl)
    | ran o hready h =>
      rcases h.waitCounter hready with hk | hk | ⟨_, hwait⟩
      · exact .inl hk
      · exact .inr (.inl hk)
      · exact absurd hready hwait

/-- The move taken from the script does not matter. -/
theorem WaitKeptBegunOrCounted.of_script {s t : State} {rest : List Move}
    (h : WaitKeptBegunOrCounted { s with script := rest } t) : WaitKeptBegunOrCounted s t := h

theorem step_waitCounter {s t : State} (h : step s = .next t) : WaitKeptBegunOrCounted s t := by
  cases step_progress h with
  | ran _ _ _ _ _ _ _ h => exact (exec_waitCounter h).of_script
  | checked _ h => exact (check_next h).2.waitCounter.of_script
  | left h => exact .inl (congrArg Progress.waitK h)

/-- Settles O53: the two clauses are what is left of `step_waitCounter` when wait_k changes. -/
theorem waitCounterChanges : Obligations.WaitCounterChanges := by
  unfold Obligations.WaitCounterChanges
  intro s t h hne
  exact (step_waitCounter h).resolve_left hne

/-! ## The role -/

/-- Settles O57: an event, a host operation and a check each leave the role or enter one that its own lemma names
(`exec_event_role`, `exec_host_role`, `CheckOutcome.role`); the other moves leave it. -/
theorem roleEntered : Obligations.RoleEntered := by
  unfold Obligations.RoleEntered
  intro s t h hne
  cases step_progress h with
  | ran p bytes tail rest i hs hd h =>
    have hport := decode_instr_port hd
    cases p with
    | event =>
      obtain ⟨code, d, henc, hr | ⟨hr, hc⟩ | ⟨hr, hc⟩⟩ := exec_event_role hport h
      · exact absurd hr hne
      · rw [hr]
        refine ⟨nofun, nofun, nofun, nofun, fun _ => .inl ⟨bytes, i, tail, rest, code, d, hs, hd, henc, ?_⟩⟩
        exact List.mem_cons.2 hc.symm
      · rw [hr]
        exact ⟨nofun, nofun, nofun, fun _ => ⟨bytes, i, tail, rest, code, d, hs, hd, henc, hc⟩, nofun⟩
    | host =>
      rcases exec_host_role hport h with hr | ⟨hr, rfl⟩ | ⟨hr, rfl⟩ | ⟨hr, hi⟩
      · exact absurd hr hne
      · rw [hr]
        exact ⟨nofun, fun _ => ⟨bytes, tail, rest, hs, hd⟩, nofun, nofun, nofun⟩
      · rw [hr]
        exact ⟨nofun, nofun, fun _ => ⟨bytes, tail, rest, hs, hd⟩, nofun, nofun⟩
      · rw [hr]
        exact ⟨nofun, nofun, nofun, nofun, fun _ => .inr (.inl ⟨bytes, i, tail, rest, hs, hd, hi⟩)⟩
  | checked rest h =>
    obtain ⟨_, hout⟩ := check_next h
    have hscript : t.script = rest := hout.frame.1
    rw [hscript]
    rcases hout.role with hr | ⟨hr, hphase⟩ | ⟨hr, hends⟩
    · exact absurd hr hne
    · rw [hr]
      exact ⟨fun _ => ⟨hphase, h⟩, nofun, nofun, nofun, nofun⟩
    · rw [hr]
      exact ⟨nofun, nofun, nofun, nofun, fun _ => .inr (.inr ⟨h, hends⟩)⟩
  | left h => exact absurd (congrArg Progress.roleState h) hne

end Sys2Proof.Machine
end

section
/-! PROOF. A wait whose condition does not hold: each check counts a delay, and at the budget it times out
(44_orchestrator.md R231, R232). -/

namespace Sys2Proof.Machine

/-- One of the four waits runs and its condition does not hold. -/
def State.Waiting (s : State) : Prop :=
  (s.phase = .waitQ1 ∧ s.quiescent = false) ∨ (s.phase = .waitDone ∧ s.quiescent = false) ∨
    (s.phase = .waitRS ∧ ∃ e, s.lastEvent = some e ∧ e ≠ 0x08#8 ∧ e ≠ 0x10#8) ∨
    (s.phase = .waitStop ∧ s.stopPending = true)

/-- What the timeout of the wait leaves: a forced reset in the repeated-start and stop waits, then TimedOut. -/
def State.afterTimeout (s : State) : State :=
  State.afterReturn (if s.phase = .waitRS ∨ s.phase = .waitStop then s.afterReset else s) 0x03#8

theorem State.afterTimeout_plain {s : State} (hp : s.phase = .waitQ1 ∨ s.phase = .waitDone) :
    s.afterTimeout = s.afterReturn 0x03#8 := by
  have hno : ¬(s.phase = .waitRS ∨ s.phase = .waitStop) := by rcases hp with hp | hp <;> simp [hp]
  rw [State.afterTimeout, if_neg hno]

theorem State.afterTimeout_reset {s : State} (hp : s.phase = .waitRS ∨ s.phase = .waitStop) :
    s.afterTimeout = s.afterReset.afterReturn 0x03#8 := by
  rw [State.afterTimeout, if_pos hp]

theorem State.Waiting.phase_ne_ready {s : State} (h : s.Waiting) : s.phase ≠ .ready := by
  rcases h with ⟨hp, _⟩ | ⟨hp, _⟩ | ⟨hp, _⟩ | ⟨hp, _⟩ <;> rw [hp] <;> decide

/-- A check in such a wait is a failed one. -/
theorem check_of_waiting {s : State} (hf : s.faults = []) (h : s.Waiting) : check s = checkFailed s.afterTimeout s := by
  rcases h with ⟨hp, hq⟩ | ⟨hp, hq⟩ | ⟨hp, e, he, h08, h10⟩ | ⟨hp, hs⟩
  · rw [check_waitQ1 hf hp, checkQ1, if_neg (Bool.eq_false_iff.1 hq), State.afterTimeout_plain (.inl hp)]
    rfl
  · rw [check_waitDone hf hp, checkDone, if_neg (Bool.eq_false_iff.1 hq), State.afterTimeout_plain (.inr hp)]
    rfl
  · rw [check_waitRS hf hp, checkRS, withField_written he, if_neg (not_or.2 ⟨h08, h10⟩), State.doReset_eq,
      State.afterTimeout_reset (.inl hp)]
    rfl
  · rw [check_waitStop hf hp, checkStop, if_pos hs, State.doReset_eq, State.afterTimeout_reset (.inr hp)]
    rfl

theorem checkFailed_counts {s : State} {t : Half} (hb : s.timeoutBudget = some t) (hk : s.waitK ≠ t) (onTimeout : State) :
    checkFailed onTimeout s = .next { s with waitK := s.waitK + 1#16 } := by
  rw [checkFailed, withField_written hb, if_neg hk]

/-- Settles O42: the check is a failed one (`check_of_waiting`), which counts below the budget, times out at it, and reads
an unwritten budget otherwise. -/
theorem failedCheckCounts : Obligations.FailedCheckCounts := by
  unfold Obligations.FailedCheckCounts
  intro s hf hw
  rw [check_of_waiting hf hw]
  refine ⟨fun t hb hk => checkFailed_counts hb hk _, fun hb => ?_, fun hb => withField_unwritten hb hf _ _⟩
  rw [checkFailed_spent hb]
  exact ⟨fun hp => congrArg Host.Outcome.next (State.afterTimeout_plain hp),
    fun hp => congrArg Host.Outcome.next (State.afterTimeout_reset hp)⟩

/-! ## The whole wait -/

theorem step_of_noMove {s : State} (hs : s.script = []) : step s = idleStep s := by
  simp only [step, fetch, hs]

theorem step_of_waitingNoMove {s : State} (hs : s.script = []) (hp : s.phase ≠ .ready) : step s = check s := by
  rw [step_of_noMove hs, idleStep, if_neg hp]

/-- A wait with n delays more counted. -/
def State.delayed (s : State) (n : Nat) : State := { s with waitK := s.waitK + BitVec.ofNat 16 n }

/-- T - wait_k delays bring wait_k to the budget T. -/
theorem delayed_to_budget {s : State} {t : Half} (hk : s.waitK.toNat ≤ t.toNat) :
    s.delayed (t.toNat - s.waitK.toNat) = { s with waitK := t } := by
  have hspent : s.waitK + BitVec.ofNat 16 (t.toNat - s.waitK.toNat) = t := by
    apply BitVec.eq_of_toNat_eq
    have := t.isLt
    rw [BitVec.toNat_add, BitVec.toNat_ofNat]
    omega
  rw [State.delayed, hspent]

section Wait

variable {s : State} {t : Half} (hs : s.script = []) (hf : s.faults = []) (hb : s.timeoutBudget = some t)
  (hw : s.Waiting)
include hs hf hb hw

/-- Below the budget a step counts one delay more. -/
theorem step_delayed {n : Nat} (hn : n < t.toNat - s.waitK.toNat) : step (s.delayed n) = .next (s.delayed (n + 1)) := by
  have hw' : (s.delayed n).Waiting := hw
  have hbelow : (s.delayed n).waitK ≠ t := by
    intro h
    have : (s.waitK + BitVec.ofNat 16 n).toNat = t.toNat := congrArg BitVec.toNat h
    rw [BitVec.toNat_add, BitVec.toNat_ofNat] at this
    omega
  rw [step_of_waitingNoMove (s := s.delayed n) hs hw'.phase_ne_ready, check_of_waiting (s := s.delayed n) hf hw',
    checkFailed_counts (s := s.delayed n) hb hbelow]
  simp only [State.delayed, BitVec.add_assoc, BitVec.ofNat_add]

theorem run_delayed {n : Nat} (hn : n ≤ t.toNat - s.waitK.toNat) : core.run n s = .next (s.delayed n) := by
  induction n with
  | zero =>
    have hzero : s.delayed 0 = s := by simp [State.delayed]
    rw [hzero]
    rfl
  | succ n ih => exact (run_snoc core (ih (by omega))).trans (step_delayed hs hf hb hw hn)

/-- At the budget a step takes the timeout. -/
theorem step_spent {u : State} (hu : u = { s with waitK := t }) : step u = .next u.afterTimeout := by
  subst hu
  have hw' : State.Waiting { s with waitK := t } := hw
  rw [step_of_waitingNoMove (s := { s with waitK := t }) hs hw'.phase_ne_ready,
    check_of_waiting (s := { s with waitK := t }) hf hw', checkFailed_spent (s := { s with waitK := t }) hb]

end Wait

/-- Settles O43: the checks below the budget count (`run_delayed`), and the one at it times out. -/
theorem waitTimesOut : Obligations.WaitTimesOut := by
  unfold Obligations.WaitTimesOut
  intro s t hs hf hb hk hw
  refine ⟨fun n hn => run_delayed hs hf hb hw hn, ?_⟩
  have hlast := run_delayed hs hf hb hw (Nat.le_refl _)
  rw [delayed_to_budget hk] at hlast
  exact (run_snoc core hlast).trans (step_spent hs hf hb hw rfl)

end Sys2Proof.Machine
end

section
/-! PROOF. One command in a dispatch (41_dispatch_core.md R144), and the buffer memory (20_memory.md R60). -/

namespace Sys2Proof.Machine

/-! ## The command of a dispatch -/

/-- The writes of CTRL among some port accesses. -/
def ctrlWrites (ops : List PortOp) : Nat := ops.countP PortOp.isCtrlWrite

/-- How a row begun at r ends with respect to its command: one command and no fault, or one fault and no command. -/
def OneCommand (r t : State) (ops : List PortOp) : Prop :=
  (ctrlWrites ops = 1 ∧ t.irqFlag = false ∧ t.faults = []) ∨
    (ctrlWrites ops = 0 ∧ t.irqFlag = r.irqFlag ∧ ∃ f, RowFault r f ∧ t.faults = [f])

/-- What a row does before its end writes no command and leaves the flag. -/
theorem Between.uncommanded {r m : State} (h : Between r m) :
    ∃ rd, m.portLog = r.portLog ++ rd ∧ ctrlWrites rd = 0 ∧ m.irqFlag = r.irqFlag := by
  obtain ⟨rd, _, _, _, _, _, _, hrd, _, _, _, rfl⟩ := h
  refine ⟨rd, rfl, ?_, rfl⟩
  rcases hrd with rfl | rfl <;> rfl

theorem Ended.oneCommand {r m t : State} (h : Ended r m t) (hf : m.faults = []) (hirq : m.irqFlag = r.irqFlag) :
    ∃ ops, t.portLog = m.portLog ++ ops ∧ OneCommand r t ops := by
  rcases h with ⟨ack, sta, sto, _, _, rfl⟩ | ⟨ack, sta, v, rfl⟩ | ⟨f, hfault, rfl⟩
  · exact ⟨[.write .ctrl (cmd ack sta sto)], rfl, .inl ⟨rfl, rfl, hf⟩⟩
  · exact ⟨[.write .data v, .write .ctrl (cmd ack sta false)], rfl, .inl ⟨rfl, rfl, hf⟩⟩
  · exact ⟨[], (List.append_nil _).symm, .inr ⟨rfl, hirq, f, hfault, rfl⟩⟩

theorem ctrlWrites_append (a b : List PortOp) : ctrlWrites (a ++ b) = ctrlWrites a + ctrlWrites b := List.countP_append

/-- Accesses before a row's end that hold no command do not matter. -/
theorem OneCommand.after {r t : State} {pre ops : List PortOp} (hpre : ctrlWrites pre = 0) (h : OneCommand r t ops) :
    OneCommand r t (pre ++ ops) := by
  rwa [OneCommand, ctrlWrites_append, hpre, Nat.zero_add]

theorem RowOutcome.oneCommand {r t : State} (h : RowOutcome r t) (hf : r.faults = []) :
    ∃ ops, t.portLog = r.portLog ++ ops ∧ OneCommand r t ops := by
  obtain ⟨m, hbetween, hend⟩ := h
  obtain ⟨_, hfaults, _⟩ := hbetween.fields
  obtain ⟨rd, hm, hrd, hirq⟩ := hbetween.uncommanded
  obtain ⟨ops, ht, hops⟩ := hend.oneCommand (hfaults.trans hf) hirq
  exact ⟨rd ++ ops, by rw [ht, hm, List.append_assoc], hops.after hrd⟩

/-- The codes of a byte request are those of three events. -/
theorem instr_of_byteRequest {i : Instr} {code d : Byte} (henc : encode i = [code, d]) (hp : i.port = .event)
    (hcode : code ∈ [0xA8#8, 0xB0#8, 0xB8#8]) : i = .stSlaAck d ∨ i = .stArbLostSlaAck d ∨ i = .stDataAck d := by
  cases i <;> cases hp <;> cases henc
  case stSlaAck => exact .inl rfl
  case stArbLostSlaAck => exact .inr (.inl rfl)
  case stDataAck => exact .inr (.inr rfl)
  all_goals exact absurd hcode (by decide)

/-- The faults that a dispatch of the event i from s can record, each with its condition. -/
def EventFault (i : Instr) (s : State) (fs : List FaultReason) : Prop :=
  (fs = [.missingByteRequested] ∧ s.slots.onByteRequested = false ∧
      ∃ d, i = .stSlaAck d ∨ i = .stArbLostSlaAck d ∨ i = .stDataAck d) ∨
    (fs = [.unwrittenRead .targetAddress] ∧ s.targetAddress = none) ∨ (fs = [.unwrittenRead .cursor] ∧ s.cursor = none) ∨
    (fs = [.unwrittenRead .length] ∧ s.length = none) ∨ (fs = [.unwrittenRead .bufferBase] ∧ s.bufferBase = none)

/-- The report writes last_event, so that no row reads it unwritten. -/
theorem RowFault.eventFault {i : Instr} {s : State} {code d : Byte} {f : FaultReason} (henc : encode i = [code, d])
    (hp : i.port = .event) (h : RowFault (s.afterReport code d) f) : EventFault i s [f] := by
  rcases h with ⟨rfl, hslot, c, hc, hev⟩ | ⟨rfl, h⟩ | ⟨rfl, h⟩ | ⟨rfl, h⟩ | ⟨rfl, h⟩ | ⟨_, h⟩
  · obtain rfl : code = c := Option.some.inj hev
    exact .inl ⟨rfl, hslot, d, instr_of_byteRequest henc hp hc⟩
  · exact .inr (.inl ⟨rfl, h⟩)
  · exact .inr (.inr (.inl ⟨rfl, h⟩))
  · exact .inr (.inr (.inr (.inl ⟨rfl, h⟩)))
  · exact .inr (.inr (.inr (.inr ⟨rfl, h⟩)))
  · cases h

/-- A START event carries the DATA byte of its encoding. -/
theorem start_data {i : Instr} {code d d' : Byte} (henc : encode i = [code, d]) (hi : i = .start d' ∨ i = .repStart d') :
    i = .start d ∨ i = .repStart d := by
  rcases hi with rfl | rfl <;> cases henc
  · exact .inl rfl
  · exact .inr rfl

/-- Settles O47: a held START is the report alone, any other row ends as `RowOutcome.oneCommand` says, and a reserved code
is the report and its fault. -/
theorem oneCommandPerDispatch : Obligations.OneCommandPerDispatch := by
  unfold Obligations.OneCommandPerDispatch
  refine ⟨fun s t i hp h => ?_, fun s t sr data h => ?_⟩
  · obtain ⟨code, d, henc, _, hen, ⟨hnot, hrow⟩ | ⟨hrole, rfl, hstart⟩⟩ := exec_event_next hp h
    · have hnot' : ¬(s.roleState = .repeatedStartPending ∧ ∃ d, i = .start d ∨ i = .repStart d) :=
        fun ⟨hrole, _, hi⟩ => hnot ⟨hrole, start_data henc hi⟩
      obtain ⟨ops, hlog, hops⟩ := hrow.oneCommand (State.faults_of_enabled (s := s) hen)
      refine ⟨[.read .sr] ++ ops, hlog.trans (List.append_assoc _ _ _), fun hheld => absurd hheld hnot', fun _ => ?_⟩
      rcases hops.after (pre := [.read .sr]) rfl with hcmd | ⟨hzero, hirq, f, hfault, hfs⟩
      · exact .inl hcmd
      · rw [hfs]
        exact .inr ⟨hzero, hirq, hfault.eventFault henc hp⟩
    · have hf : s.faults = [] := State.faults_of_enabled hen
      exact ⟨[.read .sr], rfl, fun _ => ⟨rfl, rfl, hf⟩, fun hnot => absurd ⟨hrole, d, hstart⟩ hnot⟩
  · rw [deliverReserved_enabled (deliver_next h), Host.Outcome.next.injEq] at h
    subst h
    exact ⟨rfl, rfl, rfl⟩

/-! ## What keeps the buffer memory -/

/-- If this answers a next state, its memory is m. -/
def MemIs (m : Memory) (o : Out) : Prop := ∀ t, o = .next t → t.mem = m

/-- A part of the machine that keeps the buffer memory. -/
def KeepsMem (f : State → Out) : Prop := ∀ s, MemIs s.mem (f s)

theorem MemIs.next {s : State} {m : Memory} (h : s.mem = m) : MemIs m (.next s) :=
  fun _ ht => Host.Outcome.next.inj ht ▸ h

theorem raise_keepsMem (r : FaultReason) : KeepsMem (raise r) := fun _ => .next rfl

theorem MemIs.withField {α : Type} (v : Option α) (f : Field) (s : State) {k : α → Out} (hk : ∀ x, MemIs s.mem (k x)) :
    MemIs s.mem (withField v f s k) := by
  cases v with
  | none => exact raise_keepsMem _ s
  | some x => exact hk x

theorem MemIs.atCursor (s : State) {use : Half → Half → Out} {full : Out} (hu : ∀ base c, MemIs s.mem (use base c))
    (hfull : MemIs s.mem full) : MemIs s.mem (atCursor s use full) := by
  refine .withField _ _ s fun c => .withField _ _ s fun l => ?_
  split
  · exact .withField _ _ s fun base => hu base c
  · exact hfull

theorem State.consult_mem (s : State) (c : Call) (dflt : Byte) : (s.consult c dflt).2.mem = s.mem :=
  congrArg Transfer.mem (s.consult_transfer c dflt)

theorem completion_keepsMem : KeepsMem completion :=
  fun s => .withField _ _ s fun _ => .next (s.consult_mem _ _)

theorem sendNextOrComplete_keepsMem : KeepsMem sendNextOrComplete := by
  intro s
  rw [sendNextOrComplete_eq_atCursor]
  refine .atCursor s (fun base c => fun t ht => ?_) (completion_keepsMem s)
  exact Host.Outcome.next.inj (memRead_next ht).2 ▸ rfl

theorem nackPath_keepsMem : KeepsMem nackPath := by
  refine fun s => .withField _ _ s fun ev => ?_
  have hmem := s.consult_mem (.onNackOrArbitrationLoss ev) ACT_STOP
  dsimp only
  split
  · rw [← hmem]
    exact sendNextOrComplete_keepsMem _
  · exact .next hmem

theorem startRow_keepsMem : KeepsMem startRow := by
  intro s
  unfold startRow
  split
  · exact .next rfl
  · exact .withField _ _ s fun _ => .next rfl

theorem arbLostRow_keepsMem (code : Byte) : KeepsMem (arbLostRow code) := fun s => .next (s.consult_mem _ _)

theorem issueRxAck_keepsMem : KeepsMem issueRxAck :=
  fun s => .withField _ _ s fun _ => .withField _ _ s fun _ => .next rfl

theorem busErrorRow_keepsMem : KeepsMem busErrorRow := fun _ => .next rfl

/-- An event with a code below 0x60, but for the two receive rows, is the delivery of a row that keeps the memory. -/
theorem exec_controller_keepsMem {i : Instr} {code d : Byte} (henc : encode i = [code, d]) (hp : i.port = .event)
    (hcode : code.toNat < 0x60) (hi : ∀ d, i ≠ .mrDataAck d ∧ i ≠ .mrDataNack d) :
    ∃ row, (∀ s, exec i s = deliver code d row s) ∧ KeepsMem row := by
  cases i <;> cases hp <;> cases henc
  case busError => exact ⟨_, fun _ => rfl, busErrorRow_keepsMem⟩
  case start | repStart => exact ⟨_, fun _ => rfl, startRow_keepsMem⟩
  case mtSlaAck | mtDataAck => exact ⟨_, fun _ => rfl, sendNextOrComplete_keepsMem⟩
  case mtSlaNack | mtDataNack | mrSlaNack => exact ⟨_, fun _ => rfl, nackPath_keepsMem⟩
  case arbLost => exact ⟨_, fun _ => rfl, arbLostRow_keepsMem _⟩
  case mrSlaAck => exact ⟨_, fun _ => rfl, issueRxAck_keepsMem⟩
  case mrDataAck => exact absurd rfl (hi d).1
  case mrDataNack => exact absurd rfl (hi d).2
  all_goals exact absurd hcode (by decide)

theorem exec_event_mem {i : Instr} {s t : State} (hp : i.port = .event) (hi : ∀ d, i ≠ .mrDataAck d ∧ i ≠ .mrDataNack d)
    (h : exec i s = .next t) : t.mem = s.mem := by
  obtain ⟨code, d, _, henc, hc, _⟩ := exec_event hp
  by_cases hcode : 0x60 ≤ code.toNat
  · obtain ⟨mode, ht, _⟩ := exec_responder_transfer henc hp hcode h
    exact congrArg Transfer.mem ht
  · obtain ⟨row, hexec, hrow⟩ := exec_controller_keepsMem henc hp (Nat.not_le.1 hcode) hi
    rw [hexec] at h
    exact hrow (s.afterReport code d) t (deliver_next_row hc h)

theorem exec_host_mem {i : Instr} {s t : State} (hp : i.port = .host) (h : exec i s = .next t) : t.mem = s.mem := by
  rcases exec_host_next hp h with ⟨_, rfl⟩ | ⟨_, _, rfl⟩ | ⟨_, _, heff⟩
  · rfl
  · rfl
  · obtain ⟨_, _, _, _, _, _, _, _, _, _, hmem, _⟩ := heff
    exact hmem

/-! ## The two receive rows -/

/-- Each of the two rows is a store and then a row that keeps the memory. -/
theorem exec_dataReceived {i : Instr} {d : Byte} {s t : State} (hi : i = .mrDataAck d ∨ i = .mrDataNack d)
    (h : exec i s = .next t) : ∃ code k, KeepsMem k ∧ storeReceived k (s.afterReport code d) = .next t := by
  rcases hi with rfl | rfl
  · exact ⟨0x50#8, issueRxAck, issueRxAck_keepsMem, deliver_next_row (code := 0x50#8) rfl h⟩
  · exact ⟨0x58#8, completion, completion_keepsMem, deliver_next_row (code := 0x58#8) rfl h⟩

section Store

variable {k : State → Out} (hk : KeepsMem k) {s t : State} (h : storeReceived k s = .next t)
include hk h

theorem storeReceived_mem_stored {c l base : Half} (hc : s.cursor = some c) (hl : s.length = some l)
    (hlt : c.toNat < l.toNat) (hb : s.bufferBase = some base) : t.mem = Memory.write s.mem (base + c).toNat s.data := by
  rw [storeReceived_uses hc hl hlt hb] at h
  exact hk _ t (memWrite_next h).2

theorem storeReceived_mem_full {c l : Half} (hc : s.cursor = some c) (hl : s.length = some l) (hle : l.toNat ≤ c.toNat) :
    t.mem = s.mem := by
  rw [storeReceived_noneLeft hc hl hle] at h
  exact hk s.afterDataRead t h

/-- With a field unwritten the row faults before the store, or has no slot left and stores nothing. -/
theorem storeReceived_mem_unwritten (hn : s.cursor = none ∨ s.length = none ∨ s.bufferBase = none) : t.mem = s.mem := by
  have hfault : ∀ {α : Type} {v : Option α} {f : Field} {k : α → Out}, v = none →
      withField v f s.afterDataRead k = .next t → t.mem = s.mem := by
    intro α v f k hv ht
    rw [hv, withField_none] at ht
    exact raise_keepsMem _ s.afterDataRead t ht
  cases hc : s.cursor with
  | none => exact hfault hc h
  | some c =>
    cases hl : s.length with
    | none =>
      rw [storeReceived_eq_atCursor, atCursor, withField_written (v := s.afterDataRead.cursor) hc] at h
      exact hfault hl h
    | some l =>
      have hb : s.bufferBase = none := by simpa [hc, hl] using hn
      by_cases hlt : c.toNat < l.toNat
      · rw [storeReceived_eq_atCursor, atCursor_slotLeft (s := s.afterDataRead) hc hl hlt] at h
        exact hfault hb h
      · exact storeReceived_mem_full hk h hc hl (Nat.not_lt.1 hlt)

end Store

/-- Settles O60: outside the two receive rows every instruction keeps the memory; there the store is the only write, so
that what memory reads is a read after a write. -/
theorem memoryFrame : Obligations.MemoryFrame := by
  unfold Obligations.MemoryFrame
  refine fun s t i hwf h => ⟨fun hi => ?_, fun d hi => ?_⟩
  · cases hp : i.port with
    | event => exact exec_event_mem hp hi h
    | host => exact exec_host_mem hp h
  · obtain ⟨code, k, hk, hrow⟩ := exec_dataReceived hi h
    refine ⟨fun base c l hb hc hl hlt => ?_,
      fun c l hc hl hle => storeReceived_mem_full (s := s.afterReport code d) hk hrow hc hl hle,
      fun hn => storeReceived_mem_unwritten (s := s.afterReport code d) hk hrow hn⟩
    have hmem : t.mem = Memory.write s.mem (base + c).toNat d := storeReceived_mem_stored hk hrow hc hl hlt hb
    rw [hmem]
    exact ⟨Memory.read_write_same hwf _ d, fun a ha => Memory.read_write_other s.mem d ha⟩

end Sys2Proof.Machine
end

section
/-! PROOF. A step by the move it takes: an instruction, a refused record, a move of the environment, none left
(30_encoding.md R96, R100; 44_orchestrator.md R230; 60_exceptions.md R286; 70_reset_and_hazards.md R326). -/

namespace Sys2Proof

/-! ## What the host port refuses (30_encoding.md R96) -/

theorem decodeHost_reservedSelector {sel : Byte} (h : sel.toNat % 16 = 0 ∨ 8 < sel.toNat % 16) (tail : List Byte) :
    decodeHost sel tail = .reject .reservedSelector := by
  rcases h with h | h
  · simp only [decodeHost, h]
  · obtain ⟨k, hk⟩ : ∃ k, sel.toNat % 16 = k + 9 := ⟨sel.toNat % 16 - 9, by omega⟩
    simp only [decodeHost, hk]

section Transfer

variable {sel a b0 b1 l0 l1 l2 fl : Byte} {tail : List Byte} (hsel : sel.toNat % 16 = 7 ∨ sel.toNat % 16 = 8)
include hsel

theorem decodeHost_transferAddress (ha : 0x7F < a.toNat) :
    decodeHost sel (a :: b0 :: b1 :: l0 :: l1 :: l2 :: fl :: tail) = .reject .address := by
  rcases hsel with hsel | hsel
  · simp only [decodeHost, hsel, decodeTransmit, if_pos ha]
  · simp only [decodeHost, hsel, decodeReceive, if_pos ha]

theorem decodeHost_transferRegion (ha : a.toNat ≤ 0x7F) (hr : regionRefused (half b0 b1) (l2 ++ half l0 l1).toNat = true) :
    decodeHost sel (a :: b0 :: b1 :: l0 :: l1 :: l2 :: fl :: tail) = .reject .region := by
  have ha : ¬0x7F < a.toNat := Nat.not_lt.2 ha
  rcases hsel with hsel | hsel
  · simp only [decodeHost, hsel, decodeTransmit, if_neg ha, if_pos hr]
  · simp only [decodeHost, hsel, decodeReceive, if_neg ha, if_pos hr]

end Transfer

/-- The region check, on the numbers that the record's bytes carry. -/
theorem regionRefused_of_bytes {b0 b1 l0 l1 l2 : Byte}
    (h : 0xFFFF < l0.toNat + 256 * l1.toNat + 65536 * l2.toNat ∨
      2 ^ 16 < (b0.toNat + 256 * b1.toNat) + (l0.toNat + 256 * l1.toNat + 65536 * l2.toNat)) :
    regionRefused (half b0 b1) (l2 ++ half l0 l1).toNat = true := by
  rw [len24_toNat, regionRefused, half_toNat]
  exact decide_eq_true h

theorem decodeHost_configureAddress {sel a g m h : Byte} {tail : List Byte} (hsel : sel.toNat % 16 = 3)
    (hr : 0x7F < a.toNat ∨ 0x7F < m.toNat) : decodeHost sel (a :: g :: m :: h :: tail) = .reject .address := by
  simp only [decodeHost, hsel, decodeConfigure, if_pos hr]

theorem decodeHost_initTiming {sel b0 b1 p t0 t1 fl : Byte} {tail : List Byte} (hsel : sel.toNat % 16 = 2)
    (hr : 0xFF < b0.toNat + 256 * b1.toNat ∨ 3 < p.toNat) :
    decodeHost sel (b0 :: b1 :: p :: t0 :: t1 :: fl :: tail) = .reject .timing := by
  rw [← half_toNat] at hr
  simp only [decodeHost, hsel, decodeInitRaw, if_pos hr]

end Sys2Proof

namespace Sys2Proof.Machine

/-! ## The moves that carry bytes -/

theorem fetch_event {s : State} {bytes : List Byte} {rest : List Move} (hs : s.script = .event bytes :: rest) :
    fetch s = fetchBytes .event bytes { s with script := rest } := by
  simp only [fetch, hs]

theorem fetch_host {s : State} {bytes : List Byte} {rest : List Move} (hs : s.script = .host bytes :: rest)
    (hp : s.phase = .ready) : fetch s = fetchBytes .host bytes { s with script := rest } := by
  simp only [fetch, hs, if_pos hp]

theorem step_of_run {s u : State} {i : Instr} (h : fetch s = .run i u) : step s = exec i u := by
  rw [step, h]

theorem step_of_done {s : State} {o : Out} (h : fetch s = .done o) : step s = o := by
  rw [step, h]

/-- Settles O7: the fetch decodes the move's bytes and runs what they decode to. -/
theorem stepRunsDecoded : Obligations.StepRunsDecoded := by
  unfold Obligations.StepRunsDecoded
  intro s bytes rest i tail
  exact ⟨fun hs hd => step_of_run ((fetch_event hs).trans (fetchBytes_run hd _)),
    fun hs hp hd => step_of_run ((fetch_host hs hp).trans (fetchBytes_run hd _))⟩

/-- Settles O8: the fetch leaves the record and checks; an acceptance leaves the state while phase is not Ready. -/
theorem hostWaitsWhileBusy : Obligations.HostWaitsWhileBusy := by
  unfold Obligations.HostWaitsWhileBusy
  refine fun s hp => ⟨fun record rest hs => step_of_done ?_, fun i hi => ?_⟩
  · simp only [fetch, hs, if_neg hp]
  · obtain ⟨r, o, run, _, hexec⟩ := exec_host hi
    rw [hexec, accept_waits hp]

/-- Settles O37: each record is one that the decoder rejects by its name, and the rejection sets the mark. -/
theorem recordsRefused : Obligations.RecordsRefused := by
  unfold Obligations.RecordsRefused
  intro s rest record hs hp
  have hstep : ∀ {r : Reject}, decode .host record = .reject r → step s = rejected r { s with script := rest } :=
    fun hd => step_of_done ((fetch_host hs hp).trans (fetchBytes_done hd _))
  refine ⟨?_, ?_, ?_, ?_⟩
  · rintro sel tail rfl hsel
    exact hstep (decodeHost_reservedSelector hsel tail)
  · rintro sel a b0 b1 l0 l1 l2 fl tail rfl hsel
    exact ⟨fun ha => hstep (decodeHost_transferAddress hsel ha),
      fun ha hr => hstep (decodeHost_transferRegion hsel ha (regionRefused_of_bytes hr))⟩
  · rintro sel a g m h tail rfl hsel hr
    exact hstep (decodeHost_configureAddress hsel hr)
  · rintro sel b0 b1 p t0 t1 fl tail rfl hsel hr
    exact hstep (decodeHost_initTiming hsel hr)

/-! ## The moves that are no instruction -/

theorem idleStep_ready {s : State} (hp : s.phase = .ready) :
    idleStep s = unlessFaulted s (if s.Stuck then .fault .stuck else .next s) := if_pos hp

/-- Settles O9: each clause is one branch of the fetch, with ClearStop and the idle step branch by branch. -/
theorem otherMovesStep : Obligations.OtherMovesStep := by
  unfold Obligations.OtherMovesStep
  refine fun s rest => ⟨fun hs => ?_, fun hs hp => ?_, fun hs hp => ?_, fun a hs => ?_, fun a v hs => ?_, fun r hs => ?_,
    fun hs hp => step_of_waitingNoMove hs hp, fun hs hp hf hn => ?_, fun hs hp hf hn => ?_, fun r rs hs hf => ?_⟩
  · exact step_of_done (by simp only [fetch, hs])
  · have hstep : step s = clearStop { s with script := rest } := step_of_done (by simp only [fetch, hs])
    exact hstep.trans (if_pos hp)
  · have hstep : step s = clearStop { s with script := rest } := step_of_done (by simp only [fetch, hs])
    exact hstep.trans (if_neg (Bool.eq_false_iff.1 hp))
  · exact step_of_done (o := layAnswer a { s with script := rest }) (by simp only [fetch, hs])
  · exact step_of_done (o := hostWrite a v { s with script := rest }) (by simp only [fetch, hs])
  · exact step_of_done (o := hostAlloc r { s with script := rest }) (by simp only [fetch, hs])
  · rw [step_of_noMove hs, idleStep_ready hp, unlessFaulted_clean hf, if_neg hn]
  · rw [step_of_noMove hs, idleStep_ready hp, unlessFaulted_clean hf, if_pos hn]
  · rw [step_of_noMove hs, idleStep, check, unlessFaulted_faulted hf, unlessFaulted_faulted hf, ite_self]

/-! ## Faulted and stuck states -/

theorem check_faulted {s : State} {r : FaultReason} {rs : List FaultReason} (hf : s.faults = r :: rs) :
    check s = .fault (.recorded r) := unlessFaulted_faulted hf _

theorem accept_faulted {s : State} {r : FaultReason} {rs : List FaultReason} (hf : s.faults = r :: rs)
    (hp : s.phase = .ready) (o : Op) (run : State → Out) : accept none o run s = .fault (.recorded r) :=
  (if_pos hp).trans (unlessFaulted_faulted hf _)

theorem check_next_waits {s t : State} (h : check s = .next t) : s.phase ≠ .ready := by
  intro hp
  have hrun := (unlessFaulted_next h).2
  rw [hp] at hrun
  cases hrun

theorem clearStop_next {s t : State} (h : clearStop s = .next t) : s.stopPending = true := by
  unfold clearStop at h
  split at h
  · assumption
  · cases h

/-- What it is that no agent can step. -/
theorem State.not_canStep_iff (s : State) : ¬s.CanStep ↔ s.deliveryEnabled = false ∧ s.stopPending = false ∧
    (s.faults ≠ [] ∨ (s.phase = .ready ∧ s.hostDone = true)) := by
  simp only [State.CanStep, not_or, not_and, Bool.not_eq_true, Bool.not_eq_false, ne_eq]
  tauto

/-- Settles O11: a fault stops check and acceptance first of all; each step that a stuck state must not have would be one
of the four kinds of `State.CanStep`. -/
theorem faultedHasNoStep : Obligations.FaultedHasNoStep := by
  unfold Obligations.FaultedHasNoStep
  refine ⟨fun s r rs hf => ⟨check_faulted hf, fun i hwf hi hp => ?_⟩, fun s hstuck => ?_, fun s => ?_⟩
  · obtain ⟨ref, o, run, href, hexec⟩ := exec_host hi
    rw [hexec, href hwf, accept_faulted hf hp]
  · obtain ⟨hno, hfin⟩ := hstuck
    refine ⟨fun t h => hno ?_, fun i t hi h => hno ?_, fun sr data t h => hno ?_, fun t h => hno ?_, hfin⟩
    · exact .inr (.inr (.inl ⟨check_next_waits h, (unlessFaulted_next h).1⟩))
    · exact .inl (exec_event_enabled hi h)
    · exact .inl (deliver_next h)
    · exact .inr (.inr (.inr (clearStop_next h)))
  · rw [State.Stuck, State.not_canStep_iff, and_comm]

/-! ## The policy oracle -/

/-- Settles O13: an absent slot is `State.consult_absent`; a present one takes the first answer laid down for it
(`takeAnswer_first`) or finds none (`takeAnswer_none`). -/
theorem policyAnswer : Obligations.PolicyAnswer := by
  unfold Obligations.PolicyAnswer
  refine fun s c dflt => ⟨fun hp => State.consult_absent hp dflt, fun before a after hp hans ha hb => ?_,
    fun hp hnone => ?_⟩
  · have hcall : s.policyCall c = (a, { s with answers := before ++ after, calls := s.calls ++ [c] }) := by
      simp only [State.policyCall, hans, takeAnswer_first ha hb]
    exact ⟨State.consult_answered hp hcall dflt, hcall⟩
  · have hcall : s.policyCall c = (⟨c.slot, Config.policyAction s.freeCount, Config.policyOut s.freeCount⟩,
        { s with freeCount := s.freeCount + 1, calls := s.calls ++ [c] }) := by
      simp only [State.policyCall, takeAnswer_none hnone]
    exact ⟨State.consult_answered hp hcall dflt, hcall⟩

/-! ## The address acknowledge of a receive -/

/-- Settles O18: the row is RxAck() in the state after the report, which has the transfer's fields of s. -/
theorem receiveAddressAcknowledged : Obligations.ReceiveAddressAcknowledged := by
  unfold Obligations.ReceiveAddressAcknowledged
  intro s d hen
  have hf : s.faults = [] := State.faults_of_enabled hen
  have hrow : exec (.mrSlaAck d) s = issueRxAck (s.afterReport 0x40#8 d) := deliver_enabled hen rfl d _
  rw [hrow]
  refine ⟨fun c l hc hl => ?_, fun hl => ?_, fun l hl hc => ?_⟩
  · exact issueRxAck_armed (s := s.afterReport 0x40#8 d) hc hl
  · exact withField_unwritten (s := s.afterReport 0x40#8 d) hl hf _ _
  · exact (withField_written (v := (s.afterReport 0x40#8 d).length) hl _ _ _).trans
      (withField_unwritten (s := s.afterReport 0x40#8 d) hc hf _ _)

end Sys2Proof.Machine
end
